-- ==== Sys2Proof/Word.lean ====
section
/-!
DEFINITION. The word types of the core: 32-bit integer words and addresses, bytes, 64-bit float
cells, and the index of one of 32 registers (R7, R13, R14, R30, R34).
-/

namespace Sys2Proof

/-- A 32-bit pattern: an integer register, an address, an instruction word, a binary32 pattern
(R14, R18). -/
abbrev Word := BitVec 32

/-- One byte of memory (R45 to R47). -/
abbrev Byte := BitVec 8

/-- A 64-bit pattern: a whole float cell, the executed-instruction counter (R34, R44). -/
abbrev DWord := BitVec 64

/-- The index of an integer register or of a float cell (R30, R34). -/
abbrev Reg := Fin 32

end Sys2Proof
end

