-- ==== Sys2Proof/Config.lean ====
section
/-!
DEFINITION. What the spec leaves open about one implementation of the core (the OPEN rows of R7),
and the free values of the model.

Two shapes are used.
* A parameter that can be written as plain data is a field of `Params`. The machine holds one
  `Params` in its state and no step changes it, so a statement about every state is a statement
  about every implementation. After machine initialisation the field holds an opaque constant.
* A parameter that is a function of operands, or a value drawn anew at each use, is an opaque
  function of the namespace `Config`: nothing in Lean can evaluate it or prove a value of it.
  One of them takes parts of the state and stands in Machine/State.lean, `Config.hookEffect`.
-/

namespace Sys2Proof

/-- The rounding directions of binary32 (R205, row float-to-int rounding). -/
inductive Rounding where
  /-- to the nearest integer, ties to the even one -/
  | nearestEven
  /-- toward zero -/
  | towardZero
  /-- toward minus infinity -/
  | down
  /-- toward plus infinity -/
  | up
  /-- to the nearest integer, ties away from zero -/
  | nearestAway
  deriving DecidableEq, Repr, Inhabited

/-- FMA_FUSED of R228: how many roundings a fused multiply-add makes. -/
inductive FmaRoundings where
  /-- the exact `a*b + c` rounded once -/
  | one
  /-- the product rounded, then the sum rounded -/
  | two
  deriving DecidableEq, Repr, Inhabited

/-- FLD_FSD_ACTION: the two candidates R241 and R242 write out for FLD and FSD. -/
inductive FldFsdAction where
  /-- candidate (a): the double stub of R240 -/
  | stub
  /-- candidate (b): a 64-bit move between memory and the float cell -/
  | move64
  deriving DecidableEq, Repr, Inhabited

/-- The two operations whose special cases FMINMAX_SPECIAL answers (R217, R218). -/
inductive MinMax where
  | min
  | max
  deriving DecidableEq, Repr, Inhabited

/-- The four hooks of R48. -/
inductive HookKind where
  | ecall
  | ebreak
  | atomic
  | bitmanip
  deriving DecidableEq, Repr, Inhabited

/-- What one call of a hook does: the writes R195 lets a hook make, in order, over integer
registers (register 0 too), whole float cells, and guest bytes. -/
structure HookEffect where
  xs    : List (Reg × Word)
  fs    : List (Reg × DWord)
  bytes : List (Word × Byte)
  deriving DecidableEq, Repr, Inhabited

/-- One alternative of BITMANIP_SELECT: the words equal to `value` under `mask`. A list of these
can describe every predicate on words (R104). -/
structure WordPattern where
  mask  : Word
  value : Word
  deriving DecidableEq, Repr, Inhabited

/-- The OPEN parameters of R7 that are plain data. -/
structure Params where
  /-- MAP_TAG: the top 8 bits of every slot address (R64) -/
  mapTag         : BitVec 8
  /-- NATIVE_PC: the sentinel program counter (R191) -/
  nativePc       : Word
  /-- F2I_ROUND: the direction FCVT.W.S and FCVT.WU.S round in, for each value of `rm` (R219;
  DEDUCED, log entry 9) -/
  f2iRound       : Vector Rounding 8
  /-- FMA_FUSED (R228; log entry 13) -/
  fmaFused       : FmaRoundings
  /-- FLD_FSD_ACTION (R241, R242; DESIGN CHOICE, log entry 14) -/
  fldFsd         : FldFsdAction
  /-- BITMANIP_SELECT: the words of the bit-manipulation group, any pattern of the list (R104;
  log entry 16) -/
  bitmanipSelect : List WordPattern
  deriving DecidableEq, Repr

namespace Config

/-- MAP_TAG before the constraint of R64(a) is imposed. -/
opaque mapTag : BitVec 8

/-- NATIVE_PC. -/
opaque nativePc : Word

/-- F2I_ROUND. -/
opaque f2iRound : Vector Rounding 8

/-- FMA_FUSED. -/
opaque fmaFused : FmaRoundings

/-- FLD_FSD_ACTION. -/
opaque fldFsd : FldFsdAction

/-- NAN_RESULT: the pattern of the n-th NaN an operation returns, before the constraint of R205
that it be a NaN is imposed (log entry 8). -/
opaque nanPattern : Nat → Word

/-- FDIV0_RESULT: is the zero that FDIV.S returns for these operands negative (R212;
log entry 12). -/
opaque fdiv0Negative : Word → Word → Bool

/-- FMINMAX_SPECIAL (R217, R218; log entry 11). -/
opaque fminmaxSpecial : MinMax → Word → Word → Word

/-- F2I_INVALID: the result of FCVT.W.S (`true`) and FCVT.WU.S (`false`) on a NaN or an
out-of-range operand (R219, R220; log entry 10). -/
opaque f2iInvalid : Bool → Word → Word

end Config

/-- The parameters of the implementation at hand: opaque, with R64(a) imposed on MAP_TAG, and the
default of R104 for BITMANIP_SELECT, which selects no word (log entry 6). -/
def Params.implementation : Params where
  mapTag         := if Config.mapTag = 0 then 1 else Config.mapTag
  nativePc       := Config.nativePc
  f2iRound       := Config.f2iRound
  fmaFused       := Config.fmaFused
  fldFsd         := Config.fldFsd
  bitmanipSelect := []

end Sys2Proof
end

