-- ==== Sys2Proof/Syntax.lean ====
section
/-!
DEFINITION. The instructions of the core as syntax: one constructor for each row of the opcode
table. Operand fields are kept at the width the encoding gives them (R91, R92). `rd`, `rs1`, `rs2`
and `rs3` name integer registers or float cells as each rule says. The `rm` field is kept, though
the arithmetic ignores it (R205), so that an instruction names exactly one word.
-/

namespace Sys2Proof

/-- One instruction of the core (R3, R101, R206). -/
inductive Instr where
  -- upper immediates (R132, R133)
  /-- LUI: load upper immediate (R132) -/
  | lui (rd : Reg) (imm : BitVec 20)
  /-- AUIPC: add upper immediate to pc (R133) -/
  | auipc (rd : Reg) (imm : BitVec 20)
  -- OP-IMM (R134 to R142)
  /-- ADDI: add immediate (R134) -/
  | addi (rd rs1 : Reg) (imm : BitVec 12)
  /-- SLTI: set if less than immediate, signed (R135) -/
  | slti (rd rs1 : Reg) (imm : BitVec 12)
  /-- SLTIU: set if less than immediate, unsigned (R136) -/
  | sltiu (rd rs1 : Reg) (imm : BitVec 12)
  /-- XORI: exclusive or with immediate (R137) -/
  | xori (rd rs1 : Reg) (imm : BitVec 12)
  /-- ORI: or with immediate (R138) -/
  | ori (rd rs1 : Reg) (imm : BitVec 12)
  /-- ANDI: and with immediate (R139) -/
  | andi (rd rs1 : Reg) (imm : BitVec 12)
  /-- SLLI: shift left by an immediate (R140) -/
  | slli (rd rs1 : Reg) (shamt : BitVec 5)
  /-- SRLI: logical shift right by an immediate (R141) -/
  | srli (rd rs1 : Reg) (shamt : BitVec 5)
  /-- SRAI: arithmetic shift right by an immediate (R142) -/
  | srai (rd rs1 : Reg) (shamt : BitVec 5)
  -- OP, base part (R143 to R152)
  /-- ADD: add (R143) -/
  | add (rd rs1 rs2 : Reg)
  /-- SUB: subtract (R144) -/
  | sub (rd rs1 rs2 : Reg)
  /-- SLL: shift left (R145) -/
  | sll (rd rs1 rs2 : Reg)
  /-- SLT: set if less than, signed (R146) -/
  | slt (rd rs1 rs2 : Reg)
  /-- SLTU: set if less than, unsigned (R147) -/
  | sltu (rd rs1 rs2 : Reg)
  /-- XOR: exclusive or (R148) -/
  | xor (rd rs1 rs2 : Reg)
  /-- SRL: logical shift right (R149) -/
  | srl (rd rs1 rs2 : Reg)
  /-- SRA: arithmetic shift right (R150) -/
  | sra (rd rs1 rs2 : Reg)
  /-- OR: or (R151) -/
  | or (rd rs1 rs2 : Reg)
  /-- AND: and (R152) -/
  | and (rd rs1 rs2 : Reg)
  -- OP, multiply and divide (R161 to R168)
  /-- MUL: low word of the product (R161) -/
  | mul (rd rs1 rs2 : Reg)
  /-- MULH: high word, signed by signed (R162) -/
  | mulh (rd rs1 rs2 : Reg)
  /-- MULHSU: high word, signed by unsigned (R163) -/
  | mulhsu (rd rs1 rs2 : Reg)
  /-- MULHU: high word, unsigned by unsigned (R164) -/
  | mulhu (rd rs1 rs2 : Reg)
  /-- DIV: signed quotient (R165) -/
  | div (rd rs1 rs2 : Reg)
  /-- DIVU: unsigned quotient (R166) -/
  | divu (rd rs1 rs2 : Reg)
  /-- REM: signed remainder (R167) -/
  | rem (rd rs1 rs2 : Reg)
  /-- REMU: unsigned remainder (R168) -/
  | remu (rd rs1 rs2 : Reg)
  -- LOAD (R171 to R175)
  /-- LB: load byte, sign-extended (R171) -/
  | lb (rd rs1 : Reg) (imm : BitVec 12)
  /-- LH: load halfword, sign-extended (R172) -/
  | lh (rd rs1 : Reg) (imm : BitVec 12)
  /-- LW: load word (R173) -/
  | lw (rd rs1 : Reg) (imm : BitVec 12)
  /-- LBU: load byte, zero-extended (R174) -/
  | lbu (rd rs1 : Reg) (imm : BitVec 12)
  /-- LHU: load halfword, zero-extended (R175) -/
  | lhu (rd rs1 : Reg) (imm : BitVec 12)
  -- STORE (R176 to R178)
  /-- SB: store byte (R176) -/
  | sb (rs1 rs2 : Reg) (imm : BitVec 12)
  /-- SH: store halfword (R177) -/
  | sh (rs1 rs2 : Reg) (imm : BitVec 12)
  /-- SW: store word (R178) -/
  | sw (rs1 rs2 : Reg) (imm : BitVec 12)
  -- BRANCH, JAL, JALR (R182 to R189)
  /-- BEQ: branch if equal (R182) -/
  | beq (rs1 rs2 : Reg) (off : BitVec 13)
  /-- BNE: branch if not equal (R183) -/
  | bne (rs1 rs2 : Reg) (off : BitVec 13)
  /-- BLT: branch if less, signed (R184) -/
  | blt (rs1 rs2 : Reg) (off : BitVec 13)
  /-- BGE: branch if not less, signed (R185) -/
  | bge (rs1 rs2 : Reg) (off : BitVec 13)
  /-- BLTU: branch if less, unsigned (R186) -/
  | bltu (rs1 rs2 : Reg) (off : BitVec 13)
  /-- BGEU: branch if not less, unsigned (R187) -/
  | bgeu (rs1 rs2 : Reg) (off : BitVec 13)
  /-- JAL: jump and link (R188) -/
  | jal (rd : Reg) (off : BitVec 21)
  /-- JALR: jump to register and link (R189) -/
  | jalr (rd rs1 : Reg) (imm : BitVec 12)
  -- SYSTEM and the hook groups (R197 to R201)
  /-- ECALL: environment call (R197) -/
  | ecall
  /-- EBREAK: breakpoint (R198) -/
  | ebreak
  /-- ATOMIC-GROUP: every word of the atomic opcode (R199) -/
  | atomicGroup (rd rs1 rs2 : Reg) (funct3 : BitVec 3) (funct7 : BitVec 7)
  /-- BITMANIP-GROUP: every word BITMANIP_SELECT takes (R201) -/
  | bitmanipGroup (w : Word)
  -- LOAD-FP and STORE-FP (R207, R208, R241, R242)
  /-- FLW: load float word (R207) -/
  | flw (rd rs1 : Reg) (imm : BitVec 12)
  /-- FSW: store float word (R208) -/
  | fsw (rs1 rs2 : Reg) (imm : BitVec 12)
  /-- FLD: load float double (R241) -/
  | fld (rd rs1 : Reg) (imm : BitVec 12)
  /-- FSD: store float double (R242) -/
  | fsd (rs1 rs2 : Reg) (imm : BitVec 12)
  -- OP-FP, single precision (R209 to R227)
  /-- FADD.S: add (R209) -/
  | faddS (rd rs1 rs2 : Reg) (rm : BitVec 3)
  /-- FSUB.S: subtract (R210) -/
  | fsubS (rd rs1 rs2 : Reg) (rm : BitVec 3)
  /-- FMUL.S: multiply (R211) -/
  | fmulS (rd rs1 rs2 : Reg) (rm : BitVec 3)
  /-- FDIV.S: divide (R212) -/
  | fdivS (rd rs1 rs2 : Reg) (rm : BitVec 3)
  /-- FSQRT.S: square root (R213) -/
  | fsqrtS (rd rs1 : Reg) (rm : BitVec 3)
  /-- FSGNJ.S: take the sign (R214) -/
  | fsgnjS (rd rs1 rs2 : Reg)
  /-- FSGNJN.S: take the opposite sign (R215) -/
  | fsgnjnS (rd rs1 rs2 : Reg)
  /-- FSGNJX.S: multiply the signs (R216) -/
  | fsgnjxS (rd rs1 rs2 : Reg)
  /-- FMIN.S: minimum (R217) -/
  | fminS (rd rs1 rs2 : Reg)
  /-- FMAX.S: maximum (R218) -/
  | fmaxS (rd rs1 rs2 : Reg)
  /-- FCVT.W.S: float to signed integer (R219) -/
  | fcvtWS (rd rs1 : Reg) (rm : BitVec 3)
  /-- FCVT.WU.S: float to unsigned integer (R220) -/
  | fcvtWuS (rd rs1 : Reg) (rm : BitVec 3)
  /-- FMV.X.W: float bits to an integer register (R221) -/
  | fmvXW (rd rs1 : Reg)
  /-- FEQ.S: equal (R222) -/
  | feqS (rd rs1 rs2 : Reg)
  /-- FLT.S: less (R223) -/
  | fltS (rd rs1 rs2 : Reg)
  /-- FLE.S: less or equal (R224) -/
  | fleS (rd rs1 rs2 : Reg)
  /-- FCVT.S.W: signed integer to float (R225) -/
  | fcvtSW (rd rs1 : Reg) (rm : BitVec 3)
  /-- FCVT.S.WU: unsigned integer to float (R226) -/
  | fcvtSWu (rd rs1 : Reg) (rm : BitVec 3)
  /-- FMV.W.X: integer bits to a float cell (R227) -/
  | fmvWX (rd rs1 : Reg)
  -- fused, single precision (R229 to R232)
  /-- FMADD.S: a*b + c (R229) -/
  | fmaddS (rd rs1 rs2 rs3 : Reg) (rm : BitVec 3)
  /-- FMSUB.S: a*b - c (R230) -/
  | fmsubS (rd rs1 rs2 rs3 : Reg) (rm : BitVec 3)
  /-- FNMSUB.S: -(a*b) + c (R231) -/
  | fnmsubS (rd rs1 rs2 rs3 : Reg) (rm : BitVec 3)
  /-- FNMADD.S: -(a*b) - c (R232) -/
  | fnmaddS (rd rs1 rs2 rs3 : Reg) (rm : BitVec 3)
  -- OP-FP, double-precision stubs (R243 to R262)
  /-- FADD.D: double-precision stub (R243) -/
  | faddD (rd rs1 rs2 : Reg) (rm : BitVec 3)
  /-- FSUB.D: double-precision stub (R244) -/
  | fsubD (rd rs1 rs2 : Reg) (rm : BitVec 3)
  /-- FMUL.D: double-precision stub (R245) -/
  | fmulD (rd rs1 rs2 : Reg) (rm : BitVec 3)
  /-- FDIV.D: double-precision stub (R246) -/
  | fdivD (rd rs1 rs2 : Reg) (rm : BitVec 3)
  /-- FSQRT.D: double-precision stub (R247) -/
  | fsqrtD (rd rs1 : Reg) (rm : BitVec 3)
  /-- FSGNJ.D: double-precision stub (R248) -/
  | fsgnjD (rd rs1 rs2 : Reg)
  /-- FSGNJN.D: double-precision stub (R249) -/
  | fsgnjnD (rd rs1 rs2 : Reg)
  /-- FSGNJX.D: double-precision stub (R250) -/
  | fsgnjxD (rd rs1 rs2 : Reg)
  /-- FMIN.D: double-precision stub (R251) -/
  | fminD (rd rs1 rs2 : Reg)
  /-- FMAX.D: double-precision stub (R252) -/
  | fmaxD (rd rs1 rs2 : Reg)
  /-- FCVT.S.D: double-precision stub (R253) -/
  | fcvtSD (rd rs1 : Reg) (rm : BitVec 3)
  /-- FCVT.D.S: double-precision stub (R254) -/
  | fcvtDS (rd rs1 : Reg) (rm : BitVec 3)
  /-- FEQ.D: double-precision stub (R255) -/
  | feqD (rd rs1 rs2 : Reg)
  /-- FLT.D: double-precision stub (R256) -/
  | fltD (rd rs1 rs2 : Reg)
  /-- FLE.D: double-precision stub (R257) -/
  | fleD (rd rs1 rs2 : Reg)
  /-- FCLASS.D: double-precision stub (R258) -/
  | fclassD (rd rs1 : Reg)
  /-- FCVT.W.D: double-precision stub (R259) -/
  | fcvtWD (rd rs1 : Reg) (rm : BitVec 3)
  /-- FCVT.WU.D: double-precision stub (R260) -/
  | fcvtWuD (rd rs1 : Reg) (rm : BitVec 3)
  /-- FCVT.D.W: double-precision stub (R261) -/
  | fcvtDW (rd rs1 : Reg) (rm : BitVec 3)
  /-- FCVT.D.WU: double-precision stub (R262) -/
  | fcvtDWu (rd rs1 : Reg) (rm : BitVec 3)
  -- fused, double-precision stubs (R263 to R266)
  /-- FMADD.D: double-precision stub (R263) -/
  | fmaddD (rd rs1 rs2 rs3 : Reg) (rm : BitVec 3)
  /-- FMSUB.D: double-precision stub (R264) -/
  | fmsubD (rd rs1 rs2 rs3 : Reg) (rm : BitVec 3)
  /-- FNMSUB.D: double-precision stub (R265) -/
  | fnmsubD (rd rs1 rs2 rs3 : Reg) (rm : BitVec 3)
  /-- FNMADD.D: double-precision stub (R266) -/
  | fnmaddD (rd rs1 rs2 rs3 : Reg) (rm : BitVec 3)
  deriving DecidableEq, Repr

end Sys2Proof
end

