-- ==== Sys2Proof/WellFormed.lean ====
section
/-!
DEFINITION. Well-formed instructions: the checks that the types of the operands do not make. A
branch or jump offset is even (R95, R97: bit 0 is not encoded), and a word of the bit-manipulation
group passes the length check (R90, R201).
-/

namespace Sys2Proof

/-- The length check of R90: the low two bits are 0b11 and the next three are not 0b111. -/
def is32 (w : Word) : Bool :=
  w.extractLsb' 0 2 == 0b11#2 && w.extractLsb' 2 3 != 0b111#3

/-- Is a branch offset one the SB format can hold (R95). -/
def evenOffset13 (off : BitVec 13) : Bool := off.extractLsb' 0 1 == 0#1

/-- Is a jump offset one the UJ format can hold (R97). -/
def evenOffset21 (off : BitVec 21) : Bool := off.extractLsb' 0 1 == 0#1

/-- The well-formed instructions. -/
def Instr.wf : Instr → Bool
  | .beq _ _ off => evenOffset13 off
  | .bne _ _ off => evenOffset13 off
  | .blt _ _ off => evenOffset13 off
  | .bge _ _ off => evenOffset13 off
  | .bltu _ _ off => evenOffset13 off
  | .bgeu _ _ off => evenOffset13 off
  | .jal _ off => evenOffset21 off
  | .bitmanipGroup w => is32 w
  | .lui _ _ => true
  | .auipc _ _ => true
  | .addi _ _ _ => true
  | .slti _ _ _ => true
  | .sltiu _ _ _ => true
  | .xori _ _ _ => true
  | .ori _ _ _ => true
  | .andi _ _ _ => true
  | .slli _ _ _ => true
  | .srli _ _ _ => true
  | .srai _ _ _ => true
  | .add _ _ _ => true
  | .sub _ _ _ => true
  | .sll _ _ _ => true
  | .slt _ _ _ => true
  | .sltu _ _ _ => true
  | .xor _ _ _ => true
  | .srl _ _ _ => true
  | .sra _ _ _ => true
  | .or _ _ _ => true
  | .and _ _ _ => true
  | .mul _ _ _ => true
  | .mulh _ _ _ => true
  | .mulhsu _ _ _ => true
  | .mulhu _ _ _ => true
  | .div _ _ _ => true
  | .divu _ _ _ => true
  | .rem _ _ _ => true
  | .remu _ _ _ => true
  | .lb _ _ _ => true
  | .lh _ _ _ => true
  | .lw _ _ _ => true
  | .lbu _ _ _ => true
  | .lhu _ _ _ => true
  | .sb _ _ _ => true
  | .sh _ _ _ => true
  | .sw _ _ _ => true
  | .jalr _ _ _ => true
  | .ecall => true
  | .ebreak => true
  | .atomicGroup _ _ _ _ _ => true
  | .flw _ _ _ => true
  | .fsw _ _ _ => true
  | .fld _ _ _ => true
  | .fsd _ _ _ => true
  | .faddS _ _ _ _ => true
  | .fsubS _ _ _ _ => true
  | .fmulS _ _ _ _ => true
  | .fdivS _ _ _ _ => true
  | .fsqrtS _ _ _ => true
  | .fsgnjS _ _ _ => true
  | .fsgnjnS _ _ _ => true
  | .fsgnjxS _ _ _ => true
  | .fminS _ _ _ => true
  | .fmaxS _ _ _ => true
  | .fcvtWS _ _ _ => true
  | .fcvtWuS _ _ _ => true
  | .fmvXW _ _ => true
  | .feqS _ _ _ => true
  | .fltS _ _ _ => true
  | .fleS _ _ _ => true
  | .fcvtSW _ _ _ => true
  | .fcvtSWu _ _ _ => true
  | .fmvWX _ _ => true
  | .fmaddS _ _ _ _ _ => true
  | .fmsubS _ _ _ _ _ => true
  | .fnmsubS _ _ _ _ _ => true
  | .fnmaddS _ _ _ _ _ => true
  | .faddD _ _ _ _ => true
  | .fsubD _ _ _ _ => true
  | .fmulD _ _ _ _ => true
  | .fdivD _ _ _ _ => true
  | .fsqrtD _ _ _ => true
  | .fsgnjD _ _ _ => true
  | .fsgnjnD _ _ _ => true
  | .fsgnjxD _ _ _ => true
  | .fminD _ _ _ => true
  | .fmaxD _ _ _ => true
  | .fcvtSD _ _ _ => true
  | .fcvtDS _ _ _ => true
  | .feqD _ _ _ => true
  | .fltD _ _ _ => true
  | .fleD _ _ _ => true
  | .fclassD _ _ => true
  | .fcvtWD _ _ _ => true
  | .fcvtWuD _ _ _ => true
  | .fcvtDW _ _ _ => true
  | .fcvtDWu _ _ _ => true
  | .fmaddD _ _ _ _ _ => true
  | .fmsubD _ _ _ _ _ => true
  | .fnmsubD _ _ _ _ _ => true
  | .fnmaddD _ _ _ _ _ => true

end Sys2Proof
end

