-- ==== Sys2Proof/Decode.lean ====
section
/-!
DEFINITION. The field decoder, the opcode table, the decoder and the encoder.

The field positions are those of R91 and R92, the immediates those of R93 to R97, and the table
holds the selecting fields of R101 and R206. The values are the spec's, which marks them as general
knowledge (log entry 21).
-/

namespace Sys2Proof

/-! ### Fields of a word (R91) -/

namespace Field

/-- `opcode`, `w[6:0]`. -/
def opcode (w : Word) : BitVec 7 := w.extractLsb' 0 7
/-- `grp_lo`, `w[4:2]`. -/
def grpLo (w : Word) : BitVec 3 := w.extractLsb' 2 3
/-- `grp_hi`, `w[6:5]`. -/
def grpHi (w : Word) : BitVec 2 := w.extractLsb' 5 2
/-- `rd`, `w[11:7]`. -/
def rd (w : Word) : Reg := (w.extractLsb' 7 5).toFin
/-- `funct3`, `w[14:12]`; also the `rm` field. -/
def funct3 (w : Word) : BitVec 3 := w.extractLsb' 12 3
/-- `rs1`, `w[19:15]`. -/
def rs1 (w : Word) : Reg := (w.extractLsb' 15 5).toFin
/-- `w[24:20]` as bits: the `rs2` sub-operation of R206. -/
def rs2Bits (w : Word) : BitVec 5 := w.extractLsb' 20 5
/-- `rs2`, `w[24:20]`. -/
def rs2 (w : Word) : Reg := (rs2Bits w).toFin
/-- `shamt`, `w[24:20]`. -/
def shamt (w : Word) : BitVec 5 := rs2Bits w
/-- `funct7`, `w[31:25]`. -/
def funct7 (w : Word) : BitVec 7 := w.extractLsb' 25 7
/-- `rs3`, `w[31:27]`. -/
def rs3 (w : Word) : Reg := (w.extractLsb' 27 5).toFin
/-- `fmt`, `w[26:25]`. -/
def fmt (w : Word) : BitVec 2 := w.extractLsb' 25 2
/-- `funct12`, `w[31:20]`. -/
def funct12 (w : Word) : BitVec 12 := w.extractLsb' 20 12

/-- The 12 bits of an I immediate, `w[31:20]` (R93). -/
def immI12 (w : Word) : BitVec 12 := w.extractLsb' 20 12
/-- The 12 bits of an S immediate, `{w[31:25], w[11:7]}` (R94). -/
def immS12 (w : Word) : BitVec 12 := w.extractLsb' 25 7 ++ w.extractLsb' 7 5
/-- The 13 bits of an SB immediate, `{w[31], w[7], w[30:25], w[11:8], 0}` (R95). -/
def immSB13 (w : Word) : BitVec 13 :=
  w.extractLsb' 31 1 ++ w.extractLsb' 7 1 ++ w.extractLsb' 25 6 ++ w.extractLsb' 8 4 ++ 0#1
/-- The 20 bits of a U immediate, `w[31:12]` (R96). -/
def immU20 (w : Word) : BitVec 20 := w.extractLsb' 12 20
/-- The 21 bits of a UJ immediate, `{w[31], w[19:12], w[20], w[30:21], 0}` (R97). -/
def immUJ21 (w : Word) : BitVec 21 :=
  w.extractLsb' 31 1 ++ w.extractLsb' 12 8 ++ w.extractLsb' 20 1 ++ w.extractLsb' 21 10 ++ 0#1

end Field

/-! ### Immediates as 32-bit values, in the shift forms the rules give -/

/-- `imm_I(w) = w >>a 20` (R93). -/
def immI (w : Word) : Word := w.sshiftRight 20
/-- `imm_S(w) = ((w >>a 25) << 5) | zext_5(w[11:7])` (R94). -/
def immS (w : Word) : Word := (w.sshiftRight 25 <<< 5) ||| (w.extractLsb' 7 5).setWidth 32
/-- `imm_SB(w)`: the reassembled 13 bits `v`, then `(v << 19) >>a 19` (R95). -/
def immSB (w : Word) : Word := ((Field.immSB13 w).setWidth 32 <<< 19).sshiftRight 19
/-- `imm_U(w) = w[31:12]` as an unsigned number (R96). -/
def immU (w : Word) : Word := (Field.immU20 w).setWidth 32
/-- `imm_UJ(w)`: the reassembled 21 bits `v`, then `(v << 11) >>a 11` (R97). -/
def immUJ (w : Word) : Word := ((Field.immUJ21 w).setWidth 32 <<< 11).sshiftRight 11

/-! ### The opcode table (R100, R101, R206) -/

/-- The fields that select a row: the opcode, and each further field the row fixes. -/
structure Selector where
  opcode : BitVec 7
  funct3 : Option (BitVec 3) := none
  funct7 : Option (BitVec 7) := none
  rs2    : Option (BitVec 5) := none
  fmt    : Option (BitVec 2) := none
  word   : Option Word := none
  deriving DecidableEq, Repr

/-- Does a word have the fields a row fixes. -/
def Selector.fits (x : Selector) (w : Word) : Bool :=
  Field.opcode w == x.opcode &&
  x.funct3.all (· == Field.funct3 w) &&
  x.funct7.all (· == Field.funct7 w) &&
  x.rs2.all (· == Field.rs2Bits w) &&
  x.fmt.all (· == Field.fmt w) &&
  x.word.all (· == w)

/-- A row of the opcode table: its name, its selecting fields, and the instruction it reads. -/
structure Row where
  mnemonic : String
  sel      : Selector
  build    : Word → Instr

/-- The rows of upper immediates (R132, R133). -/
def rowsUpper : List Row := [
  ⟨"LUI", { opcode := 0b0110111 },
    fun w => .lui (Field.rd w) (Field.immU20 w)⟩,
  ⟨"AUIPC", { opcode := 0b0010111 },
    fun w => .auipc (Field.rd w) (Field.immU20 w)⟩]

/-- The rows of OP-IMM (R134 to R142). -/
def rowsOpImm : List Row := [
  ⟨"ADDI", { opcode := 0b0010011, funct3 := some 0b000 },
    fun w => .addi (Field.rd w) (Field.rs1 w) (Field.immI12 w)⟩,
  ⟨"SLTI", { opcode := 0b0010011, funct3 := some 0b010 },
    fun w => .slti (Field.rd w) (Field.rs1 w) (Field.immI12 w)⟩,
  ⟨"SLTIU", { opcode := 0b0010011, funct3 := some 0b011 },
    fun w => .sltiu (Field.rd w) (Field.rs1 w) (Field.immI12 w)⟩,
  ⟨"XORI", { opcode := 0b0010011, funct3 := some 0b100 },
    fun w => .xori (Field.rd w) (Field.rs1 w) (Field.immI12 w)⟩,
  ⟨"ORI", { opcode := 0b0010011, funct3 := some 0b110 },
    fun w => .ori (Field.rd w) (Field.rs1 w) (Field.immI12 w)⟩,
  ⟨"ANDI", { opcode := 0b0010011, funct3 := some 0b111 },
    fun w => .andi (Field.rd w) (Field.rs1 w) (Field.immI12 w)⟩,
  ⟨"SLLI", { opcode := 0b0010011, funct3 := some 0b001, funct7 := some 0b0000000 },
    fun w => .slli (Field.rd w) (Field.rs1 w) (Field.shamt w)⟩,
  ⟨"SRLI", { opcode := 0b0010011, funct3 := some 0b101, funct7 := some 0b0000000 },
    fun w => .srli (Field.rd w) (Field.rs1 w) (Field.shamt w)⟩,
  ⟨"SRAI", { opcode := 0b0010011, funct3 := some 0b101, funct7 := some 0b0100000 },
    fun w => .srai (Field.rd w) (Field.rs1 w) (Field.shamt w)⟩]

/-- The rows of OP, base part (R143 to R152). -/
def rowsOp : List Row := [
  ⟨"ADD", { opcode := 0b0110011, funct3 := some 0b000, funct7 := some 0b0000000 },
    fun w => .add (Field.rd w) (Field.rs1 w) (Field.rs2 w)⟩,
  ⟨"SUB", { opcode := 0b0110011, funct3 := some 0b000, funct7 := some 0b0100000 },
    fun w => .sub (Field.rd w) (Field.rs1 w) (Field.rs2 w)⟩,
  ⟨"SLL", { opcode := 0b0110011, funct3 := some 0b001, funct7 := some 0b0000000 },
    fun w => .sll (Field.rd w) (Field.rs1 w) (Field.rs2 w)⟩,
  ⟨"SLT", { opcode := 0b0110011, funct3 := some 0b010, funct7 := some 0b0000000 },
    fun w => .slt (Field.rd w) (Field.rs1 w) (Field.rs2 w)⟩,
  ⟨"SLTU", { opcode := 0b0110011, funct3 := some 0b011, funct7 := some 0b0000000 },
    fun w => .sltu (Field.rd w) (Field.rs1 w) (Field.rs2 w)⟩,
  ⟨"XOR", { opcode := 0b0110011, funct3 := some 0b100, funct7 := some 0b0000000 },
    fun w => .xor (Field.rd w) (Field.rs1 w) (Field.rs2 w)⟩,
  ⟨"SRL", { opcode := 0b0110011, funct3 := some 0b101, funct7 := some 0b0000000 },
    fun w => .srl (Field.rd w) (Field.rs1 w) (Field.rs2 w)⟩,
  ⟨"SRA", { opcode := 0b0110011, funct3 := some 0b101, funct7 := some 0b0100000 },
    fun w => .sra (Field.rd w) (Field.rs1 w) (Field.rs2 w)⟩,
  ⟨"OR", { opcode := 0b0110011, funct3 := some 0b110, funct7 := some 0b0000000 },
    fun w => .or (Field.rd w) (Field.rs1 w) (Field.rs2 w)⟩,
  ⟨"AND", { opcode := 0b0110011, funct3 := some 0b111, funct7 := some 0b0000000 },
    fun w => .and (Field.rd w) (Field.rs1 w) (Field.rs2 w)⟩]

/-- The rows of OP, multiply and divide (R161 to R168). -/
def rowsMulDiv : List Row := [
  ⟨"MUL", { opcode := 0b0110011, funct3 := some 0b000, funct7 := some 0b0000001 },
    fun w => .mul (Field.rd w) (Field.rs1 w) (Field.rs2 w)⟩,
  ⟨"MULH", { opcode := 0b0110011, funct3 := some 0b001, funct7 := some 0b0000001 },
    fun w => .mulh (Field.rd w) (Field.rs1 w) (Field.rs2 w)⟩,
  ⟨"MULHSU", { opcode := 0b0110011, funct3 := some 0b010, funct7 := some 0b0000001 },
    fun w => .mulhsu (Field.rd w) (Field.rs1 w) (Field.rs2 w)⟩,
  ⟨"MULHU", { opcode := 0b0110011, funct3 := some 0b011, funct7 := some 0b0000001 },
    fun w => .mulhu (Field.rd w) (Field.rs1 w) (Field.rs2 w)⟩,
  ⟨"DIV", { opcode := 0b0110011, funct3 := some 0b100, funct7 := some 0b0000001 },
    fun w => .div (Field.rd w) (Field.rs1 w) (Field.rs2 w)⟩,
  ⟨"DIVU", { opcode := 0b0110011, funct3 := some 0b101, funct7 := some 0b0000001 },
    fun w => .divu (Field.rd w) (Field.rs1 w) (Field.rs2 w)⟩,
  ⟨"REM", { opcode := 0b0110011, funct3 := some 0b110, funct7 := some 0b0000001 },
    fun w => .rem (Field.rd w) (Field.rs1 w) (Field.rs2 w)⟩,
  ⟨"REMU", { opcode := 0b0110011, funct3 := some 0b111, funct7 := some 0b0000001 },
    fun w => .remu (Field.rd w) (Field.rs1 w) (Field.rs2 w)⟩]

/-- The rows of LOAD (R171 to R175). -/
def rowsLoad : List Row := [
  ⟨"LB", { opcode := 0b0000011, funct3 := some 0b000 },
    fun w => .lb (Field.rd w) (Field.rs1 w) (Field.immI12 w)⟩,
  ⟨"LH", { opcode := 0b0000011, funct3 := some 0b001 },
    fun w => .lh (Field.rd w) (Field.rs1 w) (Field.immI12 w)⟩,
  ⟨"LW", { opcode := 0b0000011, funct3 := some 0b010 },
    fun w => .lw (Field.rd w) (Field.rs1 w) (Field.immI12 w)⟩,
  ⟨"LBU", { opcode := 0b0000011, funct3 := some 0b100 },
    fun w => .lbu (Field.rd w) (Field.rs1 w) (Field.immI12 w)⟩,
  ⟨"LHU", { opcode := 0b0000011, funct3 := some 0b101 },
    fun w => .lhu (Field.rd w) (Field.rs1 w) (Field.immI12 w)⟩]

/-- The rows of STORE (R176 to R178). -/
def rowsStore : List Row := [
  ⟨"SB", { opcode := 0b0100011, funct3 := some 0b000 },
    fun w => .sb (Field.rs1 w) (Field.rs2 w) (Field.immS12 w)⟩,
  ⟨"SH", { opcode := 0b0100011, funct3 := some 0b001 },
    fun w => .sh (Field.rs1 w) (Field.rs2 w) (Field.immS12 w)⟩,
  ⟨"SW", { opcode := 0b0100011, funct3 := some 0b010 },
    fun w => .sw (Field.rs1 w) (Field.rs2 w) (Field.immS12 w)⟩]

/-- The rows of BRANCH, JAL, JALR (R182 to R189). -/
def rowsControl : List Row := [
  ⟨"BEQ", { opcode := 0b1100011, funct3 := some 0b000 },
    fun w => .beq (Field.rs1 w) (Field.rs2 w) (Field.immSB13 w)⟩,
  ⟨"BNE", { opcode := 0b1100011, funct3 := some 0b001 },
    fun w => .bne (Field.rs1 w) (Field.rs2 w) (Field.immSB13 w)⟩,
  ⟨"BLT", { opcode := 0b1100011, funct3 := some 0b100 },
    fun w => .blt (Field.rs1 w) (Field.rs2 w) (Field.immSB13 w)⟩,
  ⟨"BGE", { opcode := 0b1100011, funct3 := some 0b101 },
    fun w => .bge (Field.rs1 w) (Field.rs2 w) (Field.immSB13 w)⟩,
  ⟨"BLTU", { opcode := 0b1100011, funct3 := some 0b110 },
    fun w => .bltu (Field.rs1 w) (Field.rs2 w) (Field.immSB13 w)⟩,
  ⟨"BGEU", { opcode := 0b1100011, funct3 := some 0b111 },
    fun w => .bgeu (Field.rs1 w) (Field.rs2 w) (Field.immSB13 w)⟩,
  ⟨"JAL", { opcode := 0b1101111 },
    fun w => .jal (Field.rd w) (Field.immUJ21 w)⟩,
  ⟨"JALR", { opcode := 0b1100111, funct3 := some 0b000 },
    fun w => .jalr (Field.rd w) (Field.rs1 w) (Field.immI12 w)⟩]

/-- The rows of SYSTEM and the hook groups (R197 to R201). -/
def rowsSystem : List Row := [
  ⟨"ECALL", { opcode := 0b1110011, word := some 0x00000073 },
    fun _ => .ecall⟩,
  ⟨"EBREAK", { opcode := 0b1110011, word := some 0x00100073 },
    fun _ => .ebreak⟩,
  ⟨"ATOMIC-GROUP", { opcode := 0b0101111 },
    fun w => .atomicGroup (Field.rd w) (Field.rs1 w) (Field.rs2 w) (Field.funct3 w) (Field.funct7 w)⟩]

/-- The rows of LOAD-FP and STORE-FP (R207, R208, R241, R242). -/
def rowsFloatMem : List Row := [
  ⟨"FLW", { opcode := 0b0000111, funct3 := some 0b010 },
    fun w => .flw (Field.rd w) (Field.rs1 w) (Field.immI12 w)⟩,
  ⟨"FSW", { opcode := 0b0100111, funct3 := some 0b010 },
    fun w => .fsw (Field.rs1 w) (Field.rs2 w) (Field.immS12 w)⟩,
  ⟨"FLD", { opcode := 0b0000111, funct3 := some 0b011 },
    fun w => .fld (Field.rd w) (Field.rs1 w) (Field.immI12 w)⟩,
  ⟨"FSD", { opcode := 0b0100111, funct3 := some 0b011 },
    fun w => .fsd (Field.rs1 w) (Field.rs2 w) (Field.immS12 w)⟩]

/-- The rows of OP-FP, single precision (R209 to R227). -/
def rowsFloatS : List Row := [
  ⟨"FADD.S", { opcode := 0b1010011, funct7 := some 0b0000000 },
    fun w => .faddS (Field.rd w) (Field.rs1 w) (Field.rs2 w) (Field.funct3 w)⟩,
  ⟨"FSUB.S", { opcode := 0b1010011, funct7 := some 0b0000100 },
    fun w => .fsubS (Field.rd w) (Field.rs1 w) (Field.rs2 w) (Field.funct3 w)⟩,
  ⟨"FMUL.S", { opcode := 0b1010011, funct7 := some 0b0001000 },
    fun w => .fmulS (Field.rd w) (Field.rs1 w) (Field.rs2 w) (Field.funct3 w)⟩,
  ⟨"FDIV.S", { opcode := 0b1010011, funct7 := some 0b0001100 },
    fun w => .fdivS (Field.rd w) (Field.rs1 w) (Field.rs2 w) (Field.funct3 w)⟩,
  ⟨"FSQRT.S", { opcode := 0b1010011, funct7 := some 0b0101100, rs2 := some 0b00000 },
    fun w => .fsqrtS (Field.rd w) (Field.rs1 w) (Field.funct3 w)⟩,
  ⟨"FSGNJ.S", { opcode := 0b1010011, funct3 := some 0b000, funct7 := some 0b0010000 },
    fun w => .fsgnjS (Field.rd w) (Field.rs1 w) (Field.rs2 w)⟩,
  ⟨"FSGNJN.S", { opcode := 0b1010011, funct3 := some 0b001, funct7 := some 0b0010000 },
    fun w => .fsgnjnS (Field.rd w) (Field.rs1 w) (Field.rs2 w)⟩,
  ⟨"FSGNJX.S", { opcode := 0b1010011, funct3 := some 0b010, funct7 := some 0b0010000 },
    fun w => .fsgnjxS (Field.rd w) (Field.rs1 w) (Field.rs2 w)⟩,
  ⟨"FMIN.S", { opcode := 0b1010011, funct3 := some 0b000, funct7 := some 0b0010100 },
    fun w => .fminS (Field.rd w) (Field.rs1 w) (Field.rs2 w)⟩,
  ⟨"FMAX.S", { opcode := 0b1010011, funct3 := some 0b001, funct7 := some 0b0010100 },
    fun w => .fmaxS (Field.rd w) (Field.rs1 w) (Field.rs2 w)⟩,
  ⟨"FCVT.W.S", { opcode := 0b1010011, funct7 := some 0b1100000, rs2 := some 0b00000 },
    fun w => .fcvtWS (Field.rd w) (Field.rs1 w) (Field.funct3 w)⟩,
  ⟨"FCVT.WU.S", { opcode := 0b1010011, funct7 := some 0b1100000, rs2 := some 0b00001 },
    fun w => .fcvtWuS (Field.rd w) (Field.rs1 w) (Field.funct3 w)⟩,
  ⟨"FMV.X.W", { opcode := 0b1010011, funct3 := some 0b000, funct7 := some 0b1110000, rs2 := some 0b00000 },
    fun w => .fmvXW (Field.rd w) (Field.rs1 w)⟩,
  ⟨"FEQ.S", { opcode := 0b1010011, funct3 := some 0b010, funct7 := some 0b1010000 },
    fun w => .feqS (Field.rd w) (Field.rs1 w) (Field.rs2 w)⟩,
  ⟨"FLT.S", { opcode := 0b1010011, funct3 := some 0b001, funct7 := some 0b1010000 },
    fun w => .fltS (Field.rd w) (Field.rs1 w) (Field.rs2 w)⟩,
  ⟨"FLE.S", { opcode := 0b1010011, funct3 := some 0b000, funct7 := some 0b1010000 },
    fun w => .fleS (Field.rd w) (Field.rs1 w) (Field.rs2 w)⟩,
  ⟨"FCVT.S.W", { opcode := 0b1010011, funct7 := some 0b1101000, rs2 := some 0b00000 },
    fun w => .fcvtSW (Field.rd w) (Field.rs1 w) (Field.funct3 w)⟩,
  ⟨"FCVT.S.WU", { opcode := 0b1010011, funct7 := some 0b1101000, rs2 := some 0b00001 },
    fun w => .fcvtSWu (Field.rd w) (Field.rs1 w) (Field.funct3 w)⟩,
  ⟨"FMV.W.X", { opcode := 0b1010011, funct3 := some 0b000, funct7 := some 0b1111000, rs2 := some 0b00000 },
    fun w => .fmvWX (Field.rd w) (Field.rs1 w)⟩]

/-- The rows of fused, single precision (R229 to R232). -/
def rowsFusedS : List Row := [
  ⟨"FMADD.S", { opcode := 0b1000011, fmt := some 0b00 },
    fun w => .fmaddS (Field.rd w) (Field.rs1 w) (Field.rs2 w) (Field.rs3 w) (Field.funct3 w)⟩,
  ⟨"FMSUB.S", { opcode := 0b1000111, fmt := some 0b00 },
    fun w => .fmsubS (Field.rd w) (Field.rs1 w) (Field.rs2 w) (Field.rs3 w) (Field.funct3 w)⟩,
  ⟨"FNMSUB.S", { opcode := 0b1001011, fmt := some 0b00 },
    fun w => .fnmsubS (Field.rd w) (Field.rs1 w) (Field.rs2 w) (Field.rs3 w) (Field.funct3 w)⟩,
  ⟨"FNMADD.S", { opcode := 0b1001111, fmt := some 0b00 },
    fun w => .fnmaddS (Field.rd w) (Field.rs1 w) (Field.rs2 w) (Field.rs3 w) (Field.funct3 w)⟩]

/-- The rows of OP-FP, double-precision stubs (R243 to R262). -/
def rowsFloatD : List Row := [
  ⟨"FADD.D", { opcode := 0b1010011, funct7 := some 0b0000001 },
    fun w => .faddD (Field.rd w) (Field.rs1 w) (Field.rs2 w) (Field.funct3 w)⟩,
  ⟨"FSUB.D", { opcode := 0b1010011, funct7 := some 0b0000101 },
    fun w => .fsubD (Field.rd w) (Field.rs1 w) (Field.rs2 w) (Field.funct3 w)⟩,
  ⟨"FMUL.D", { opcode := 0b1010011, funct7 := some 0b0001001 },
    fun w => .fmulD (Field.rd w) (Field.rs1 w) (Field.rs2 w) (Field.funct3 w)⟩,
  ⟨"FDIV.D", { opcode := 0b1010011, funct7 := some 0b0001101 },
    fun w => .fdivD (Field.rd w) (Field.rs1 w) (Field.rs2 w) (Field.funct3 w)⟩,
  ⟨"FSQRT.D", { opcode := 0b1010011, funct7 := some 0b0101101, rs2 := some 0b00000 },
    fun w => .fsqrtD (Field.rd w) (Field.rs1 w) (Field.funct3 w)⟩,
  ⟨"FSGNJ.D", { opcode := 0b1010011, funct3 := some 0b000, funct7 := some 0b0010001 },
    fun w => .fsgnjD (Field.rd w) (Field.rs1 w) (Field.rs2 w)⟩,
  ⟨"FSGNJN.D", { opcode := 0b1010011, funct3 := some 0b001, funct7 := some 0b0010001 },
    fun w => .fsgnjnD (Field.rd w) (Field.rs1 w) (Field.rs2 w)⟩,
  ⟨"FSGNJX.D", { opcode := 0b1010011, funct3 := some 0b010, funct7 := some 0b0010001 },
    fun w => .fsgnjxD (Field.rd w) (Field.rs1 w) (Field.rs2 w)⟩,
  ⟨"FMIN.D", { opcode := 0b1010011, funct3 := some 0b000, funct7 := some 0b0010101 },
    fun w => .fminD (Field.rd w) (Field.rs1 w) (Field.rs2 w)⟩,
  ⟨"FMAX.D", { opcode := 0b1010011, funct3 := some 0b001, funct7 := some 0b0010101 },
    fun w => .fmaxD (Field.rd w) (Field.rs1 w) (Field.rs2 w)⟩,
  ⟨"FCVT.S.D", { opcode := 0b1010011, funct7 := some 0b0100000, rs2 := some 0b00001 },
    fun w => .fcvtSD (Field.rd w) (Field.rs1 w) (Field.funct3 w)⟩,
  ⟨"FCVT.D.S", { opcode := 0b1010011, funct7 := some 0b0100001, rs2 := some 0b00000 },
    fun w => .fcvtDS (Field.rd w) (Field.rs1 w) (Field.funct3 w)⟩,
  ⟨"FEQ.D", { opcode := 0b1010011, funct3 := some 0b010, funct7 := some 0b1010001 },
    fun w => .feqD (Field.rd w) (Field.rs1 w) (Field.rs2 w)⟩,
  ⟨"FLT.D", { opcode := 0b1010011, funct3 := some 0b001, funct7 := some 0b1010001 },
    fun w => .fltD (Field.rd w) (Field.rs1 w) (Field.rs2 w)⟩,
  ⟨"FLE.D", { opcode := 0b1010011, funct3 := some 0b000, funct7 := some 0b1010001 },
    fun w => .fleD (Field.rd w) (Field.rs1 w) (Field.rs2 w)⟩,
  ⟨"FCLASS.D", { opcode := 0b1010011, funct3 := some 0b001, funct7 := some 0b1110001, rs2 := some 0b00000 },
    fun w => .fclassD (Field.rd w) (Field.rs1 w)⟩,
  ⟨"FCVT.W.D", { opcode := 0b1010011, funct7 := some 0b1100001, rs2 := some 0b00000 },
    fun w => .fcvtWD (Field.rd w) (Field.rs1 w) (Field.funct3 w)⟩,
  ⟨"FCVT.WU.D", { opcode := 0b1010011, funct7 := some 0b1100001, rs2 := some 0b00001 },
    fun w => .fcvtWuD (Field.rd w) (Field.rs1 w) (Field.funct3 w)⟩,
  ⟨"FCVT.D.W", { opcode := 0b1010011, funct7 := some 0b1101001, rs2 := some 0b00000 },
    fun w => .fcvtDW (Field.rd w) (Field.rs1 w) (Field.funct3 w)⟩,
  ⟨"FCVT.D.WU", { opcode := 0b1010011, funct7 := some 0b1101001, rs2 := some 0b00001 },
    fun w => .fcvtDWu (Field.rd w) (Field.rs1 w) (Field.funct3 w)⟩]

/-- The rows of fused, double-precision stubs (R263 to R266). -/
def rowsFusedD : List Row := [
  ⟨"FMADD.D", { opcode := 0b1000011, fmt := some 0b01 },
    fun w => .fmaddD (Field.rd w) (Field.rs1 w) (Field.rs2 w) (Field.rs3 w) (Field.funct3 w)⟩,
  ⟨"FMSUB.D", { opcode := 0b1000111, fmt := some 0b01 },
    fun w => .fmsubD (Field.rd w) (Field.rs1 w) (Field.rs2 w) (Field.rs3 w) (Field.funct3 w)⟩,
  ⟨"FNMSUB.D", { opcode := 0b1001011, fmt := some 0b01 },
    fun w => .fnmsubD (Field.rd w) (Field.rs1 w) (Field.rs2 w) (Field.rs3 w) (Field.funct3 w)⟩,
  ⟨"FNMADD.D", { opcode := 0b1001111, fmt := some 0b01 },
    fun w => .fnmaddD (Field.rd w) (Field.rs1 w) (Field.rs2 w) (Field.rs3 w) (Field.funct3 w)⟩]

/-- The opcode table: every row but BITMANIP-GROUP, which has no bits of its own (R104). -/
def opcodeRows : List Row :=
  rowsUpper ++ rowsOpImm ++ rowsOp ++ rowsMulDiv ++ rowsLoad ++ rowsStore ++ rowsControl ++ rowsSystem ++ rowsFloatMem ++ rowsFloatS ++ rowsFusedS ++ rowsFloatD ++ rowsFusedD

/-! ### The decoder -/

/-- The row a word matches (R102: at most one row matches). -/
def rowOf (w : Word) : Option Row := opcodeRows.find? (·.sel.fits w)

/-- BITMANIP_SELECT of an implementation, as a predicate on words (R104). -/
def Params.selectsBitmanip (p : Params) (w : Word) : Bool :=
  p.bitmanipSelect.any fun q => w &&& q.mask == q.value

/-- The instruction of a word: the row it matches, else the bit-manipulation group if
BITMANIP_SELECT takes it, else none, an unrecognised encoding (R105, R125). A word that fails the
length check has none either (R90). -/
def decode (p : Params) (w : Word) : Option Instr :=
  if is32 w then
    match rowOf w with
    | some r => some (r.build w)
    | none => if p.selectsBitmanip w then some (.bitmanipGroup w) else none
  else none

/-- Four bytes as a word, the byte at the lowest address least significant (R68). -/
def wordOfBytes (b0 b1 b2 b3 : Byte) : Word := b3 ++ b2 ++ b1 ++ b0

/-- The four bytes of a word, lowest address first (R68). -/
def bytesOfWord (w : Word) : List Byte :=
  [w.extractLsb' 0 8, w.extractLsb' 8 8, w.extractLsb' 16 8, w.extractLsb' 24 8]

/-- The instruction at the head of a list of bytes, and the bytes after it (R90: every instruction
is one 32-bit word). -/
def decodeBytes (p : Params) : List Byte → Option (Instr × List Byte)
  | b0 :: b1 :: b2 :: b3 :: rest => (decode p (wordOfBytes b0 b1 b2 b3)).map (·, rest)
  | _ => none

/-- The word whose low `nbits` bits are `w` and whose other bits are 0. -/
def tableWord (nbits w : Nat) : Word := BitVec.ofNat 32 (w % 2 ^ nbits)

/-- The instruction the decoder reads from a table word laid out in memory. -/
def decodeTableWord (nbits w : Nat) : Option Instr :=
  (decodeBytes Params.implementation (bytesOfWord (tableWord nbits w))).map Prod.fst

/-! ### The encoder (R92, R99) -/

/-- A register index as a 5-bit field. -/
def regBits (r : Reg) : BitVec 5 := BitVec.ofFin r

/-- R format. -/
def encR (funct7 : BitVec 7) (rs2 rs1 : Reg) (funct3 : BitVec 3) (rd : Reg) (opcode : BitVec 7) :
    Word :=
  funct7 ++ regBits rs2 ++ regBits rs1 ++ funct3 ++ regBits rd ++ opcode

/-- R4 format. -/
def encR4 (rs3 : Reg) (fmt : BitVec 2) (rs2 rs1 : Reg) (funct3 : BitVec 3) (rd : Reg)
    (opcode : BitVec 7) : Word :=
  regBits rs3 ++ fmt ++ regBits rs2 ++ regBits rs1 ++ funct3 ++ regBits rd ++ opcode

/-- I format. -/
def encI (imm : BitVec 12) (rs1 : Reg) (funct3 : BitVec 3) (rd : Reg) (opcode : BitVec 7) : Word :=
  imm ++ regBits rs1 ++ funct3 ++ regBits rd ++ opcode

/-- I format of an OP-IMM shift. -/
def encShift (funct7 : BitVec 7) (shamt : BitVec 5) (rs1 : Reg) (funct3 : BitVec 3) (rd : Reg)
    (opcode : BitVec 7) : Word :=
  funct7 ++ shamt ++ regBits rs1 ++ funct3 ++ regBits rd ++ opcode

/-- S format. -/
def encS (imm : BitVec 12) (rs2 rs1 : Reg) (funct3 : BitVec 3) (opcode : BitVec 7) : Word :=
  imm.extractLsb' 5 7 ++ regBits rs2 ++ regBits rs1 ++ funct3 ++ imm.extractLsb' 0 5 ++ opcode

/-- SB format; bit 0 of the offset is dropped. -/
def encSB (off : BitVec 13) (rs2 rs1 : Reg) (funct3 : BitVec 3) (opcode : BitVec 7) : Word :=
  off.extractLsb' 12 1 ++ off.extractLsb' 5 6 ++ regBits rs2 ++ regBits rs1 ++ funct3 ++
    off.extractLsb' 1 4 ++ off.extractLsb' 11 1 ++ opcode

/-- U format. -/
def encU (imm : BitVec 20) (rd : Reg) (opcode : BitVec 7) : Word :=
  imm ++ regBits rd ++ opcode

/-- UJ format; bit 0 of the offset is dropped. -/
def encUJ (off : BitVec 21) (rd : Reg) (opcode : BitVec 7) : Word :=
  off.extractLsb' 20 1 ++ off.extractLsb' 1 10 ++ off.extractLsb' 11 1 ++ off.extractLsb' 12 8 ++
    regBits rd ++ opcode

/-- The word of an instruction (R92, R99, R101, R206). -/
def encode : Instr → Word
  | .lui rd imm => encU imm rd 0b0110111
  | .auipc rd imm => encU imm rd 0b0010111
  | .addi rd rs1 imm => encI imm rs1 0b000 rd 0b0010011
  | .slti rd rs1 imm => encI imm rs1 0b010 rd 0b0010011
  | .sltiu rd rs1 imm => encI imm rs1 0b011 rd 0b0010011
  | .xori rd rs1 imm => encI imm rs1 0b100 rd 0b0010011
  | .ori rd rs1 imm => encI imm rs1 0b110 rd 0b0010011
  | .andi rd rs1 imm => encI imm rs1 0b111 rd 0b0010011
  | .slli rd rs1 shamt => encShift 0b0000000 shamt rs1 0b001 rd 0b0010011
  | .srli rd rs1 shamt => encShift 0b0000000 shamt rs1 0b101 rd 0b0010011
  | .srai rd rs1 shamt => encShift 0b0100000 shamt rs1 0b101 rd 0b0010011
  | .add rd rs1 rs2 => encR 0b0000000 rs2 rs1 0b000 rd 0b0110011
  | .sub rd rs1 rs2 => encR 0b0100000 rs2 rs1 0b000 rd 0b0110011
  | .sll rd rs1 rs2 => encR 0b0000000 rs2 rs1 0b001 rd 0b0110011
  | .slt rd rs1 rs2 => encR 0b0000000 rs2 rs1 0b010 rd 0b0110011
  | .sltu rd rs1 rs2 => encR 0b0000000 rs2 rs1 0b011 rd 0b0110011
  | .xor rd rs1 rs2 => encR 0b0000000 rs2 rs1 0b100 rd 0b0110011
  | .srl rd rs1 rs2 => encR 0b0000000 rs2 rs1 0b101 rd 0b0110011
  | .sra rd rs1 rs2 => encR 0b0100000 rs2 rs1 0b101 rd 0b0110011
  | .or rd rs1 rs2 => encR 0b0000000 rs2 rs1 0b110 rd 0b0110011
  | .and rd rs1 rs2 => encR 0b0000000 rs2 rs1 0b111 rd 0b0110011
  | .mul rd rs1 rs2 => encR 0b0000001 rs2 rs1 0b000 rd 0b0110011
  | .mulh rd rs1 rs2 => encR 0b0000001 rs2 rs1 0b001 rd 0b0110011
  | .mulhsu rd rs1 rs2 => encR 0b0000001 rs2 rs1 0b010 rd 0b0110011
  | .mulhu rd rs1 rs2 => encR 0b0000001 rs2 rs1 0b011 rd 0b0110011
  | .div rd rs1 rs2 => encR 0b0000001 rs2 rs1 0b100 rd 0b0110011
  | .divu rd rs1 rs2 => encR 0b0000001 rs2 rs1 0b101 rd 0b0110011
  | .rem rd rs1 rs2 => encR 0b0000001 rs2 rs1 0b110 rd 0b0110011
  | .remu rd rs1 rs2 => encR 0b0000001 rs2 rs1 0b111 rd 0b0110011
  | .lb rd rs1 imm => encI imm rs1 0b000 rd 0b0000011
  | .lh rd rs1 imm => encI imm rs1 0b001 rd 0b0000011
  | .lw rd rs1 imm => encI imm rs1 0b010 rd 0b0000011
  | .lbu rd rs1 imm => encI imm rs1 0b100 rd 0b0000011
  | .lhu rd rs1 imm => encI imm rs1 0b101 rd 0b0000011
  | .sb rs1 rs2 imm => encS imm rs2 rs1 0b000 0b0100011
  | .sh rs1 rs2 imm => encS imm rs2 rs1 0b001 0b0100011
  | .sw rs1 rs2 imm => encS imm rs2 rs1 0b010 0b0100011
  | .beq rs1 rs2 off => encSB off rs2 rs1 0b000 0b1100011
  | .bne rs1 rs2 off => encSB off rs2 rs1 0b001 0b1100011
  | .blt rs1 rs2 off => encSB off rs2 rs1 0b100 0b1100011
  | .bge rs1 rs2 off => encSB off rs2 rs1 0b101 0b1100011
  | .bltu rs1 rs2 off => encSB off rs2 rs1 0b110 0b1100011
  | .bgeu rs1 rs2 off => encSB off rs2 rs1 0b111 0b1100011
  | .jal rd off => encUJ off rd 0b1101111
  | .jalr rd rs1 imm => encI imm rs1 0b000 rd 0b1100111
  | .ecall => 0x00000073
  | .ebreak => 0x00100073
  | .atomicGroup rd rs1 rs2 funct3 funct7 => encR funct7 rs2 rs1 funct3 rd 0b0101111
  | .bitmanipGroup w => w
  | .flw rd rs1 imm => encI imm rs1 0b010 rd 0b0000111
  | .fsw rs1 rs2 imm => encS imm rs2 rs1 0b010 0b0100111
  | .fld rd rs1 imm => encI imm rs1 0b011 rd 0b0000111
  | .fsd rs1 rs2 imm => encS imm rs2 rs1 0b011 0b0100111
  | .faddS rd rs1 rs2 rm => encR 0b0000000 rs2 rs1 rm rd 0b1010011
  | .fsubS rd rs1 rs2 rm => encR 0b0000100 rs2 rs1 rm rd 0b1010011
  | .fmulS rd rs1 rs2 rm => encR 0b0001000 rs2 rs1 rm rd 0b1010011
  | .fdivS rd rs1 rs2 rm => encR 0b0001100 rs2 rs1 rm rd 0b1010011
  | .fsqrtS rd rs1 rm => encR 0b0101100 0 rs1 rm rd 0b1010011
  | .fsgnjS rd rs1 rs2 => encR 0b0010000 rs2 rs1 0b000 rd 0b1010011
  | .fsgnjnS rd rs1 rs2 => encR 0b0010000 rs2 rs1 0b001 rd 0b1010011
  | .fsgnjxS rd rs1 rs2 => encR 0b0010000 rs2 rs1 0b010 rd 0b1010011
  | .fminS rd rs1 rs2 => encR 0b0010100 rs2 rs1 0b000 rd 0b1010011
  | .fmaxS rd rs1 rs2 => encR 0b0010100 rs2 rs1 0b001 rd 0b1010011
  | .fcvtWS rd rs1 rm => encR 0b1100000 0 rs1 rm rd 0b1010011
  | .fcvtWuS rd rs1 rm => encR 0b1100000 1 rs1 rm rd 0b1010011
  | .fmvXW rd rs1 => encR 0b1110000 0 rs1 0b000 rd 0b1010011
  | .feqS rd rs1 rs2 => encR 0b1010000 rs2 rs1 0b010 rd 0b1010011
  | .fltS rd rs1 rs2 => encR 0b1010000 rs2 rs1 0b001 rd 0b1010011
  | .fleS rd rs1 rs2 => encR 0b1010000 rs2 rs1 0b000 rd 0b1010011
  | .fcvtSW rd rs1 rm => encR 0b1101000 0 rs1 rm rd 0b1010011
  | .fcvtSWu rd rs1 rm => encR 0b1101000 1 rs1 rm rd 0b1010011
  | .fmvWX rd rs1 => encR 0b1111000 0 rs1 0b000 rd 0b1010011
  | .fmaddS rd rs1 rs2 rs3 rm => encR4 rs3 0b00 rs2 rs1 rm rd 0b1000011
  | .fmsubS rd rs1 rs2 rs3 rm => encR4 rs3 0b00 rs2 rs1 rm rd 0b1000111
  | .fnmsubS rd rs1 rs2 rs3 rm => encR4 rs3 0b00 rs2 rs1 rm rd 0b1001011
  | .fnmaddS rd rs1 rs2 rs3 rm => encR4 rs3 0b00 rs2 rs1 rm rd 0b1001111
  | .faddD rd rs1 rs2 rm => encR 0b0000001 rs2 rs1 rm rd 0b1010011
  | .fsubD rd rs1 rs2 rm => encR 0b0000101 rs2 rs1 rm rd 0b1010011
  | .fmulD rd rs1 rs2 rm => encR 0b0001001 rs2 rs1 rm rd 0b1010011
  | .fdivD rd rs1 rs2 rm => encR 0b0001101 rs2 rs1 rm rd 0b1010011
  | .fsqrtD rd rs1 rm => encR 0b0101101 0 rs1 rm rd 0b1010011
  | .fsgnjD rd rs1 rs2 => encR 0b0010001 rs2 rs1 0b000 rd 0b1010011
  | .fsgnjnD rd rs1 rs2 => encR 0b0010001 rs2 rs1 0b001 rd 0b1010011
  | .fsgnjxD rd rs1 rs2 => encR 0b0010001 rs2 rs1 0b010 rd 0b1010011
  | .fminD rd rs1 rs2 => encR 0b0010101 rs2 rs1 0b000 rd 0b1010011
  | .fmaxD rd rs1 rs2 => encR 0b0010101 rs2 rs1 0b001 rd 0b1010011
  | .fcvtSD rd rs1 rm => encR 0b0100000 1 rs1 rm rd 0b1010011
  | .fcvtDS rd rs1 rm => encR 0b0100001 0 rs1 rm rd 0b1010011
  | .feqD rd rs1 rs2 => encR 0b1010001 rs2 rs1 0b010 rd 0b1010011
  | .fltD rd rs1 rs2 => encR 0b1010001 rs2 rs1 0b001 rd 0b1010011
  | .fleD rd rs1 rs2 => encR 0b1010001 rs2 rs1 0b000 rd 0b1010011
  | .fclassD rd rs1 => encR 0b1110001 0 rs1 0b001 rd 0b1010011
  | .fcvtWD rd rs1 rm => encR 0b1100001 0 rs1 rm rd 0b1010011
  | .fcvtWuD rd rs1 rm => encR 0b1100001 1 rs1 rm rd 0b1010011
  | .fcvtDW rd rs1 rm => encR 0b1101001 0 rs1 rm rd 0b1010011
  | .fcvtDWu rd rs1 rm => encR 0b1101001 1 rs1 rm rd 0b1010011
  | .fmaddD rd rs1 rs2 rs3 rm => encR4 rs3 0b01 rs2 rs1 rm rd 0b1000011
  | .fmsubD rd rs1 rs2 rs3 rm => encR4 rs3 0b01 rs2 rs1 rm rd 0b1000111
  | .fnmsubD rd rs1 rs2 rs3 rm => encR4 rs3 0b01 rs2 rs1 rm rd 0b1001011
  | .fnmaddD rd rs1 rs2 rs3 rm => encR4 rs3 0b01 rs2 rs1 rm rd 0b1001111

/-- Does an implementation read the instruction back from its word: it is well-formed, and a word
of the bit-manipulation group matches no row and is one BITMANIP_SELECT takes (R104). -/
def Instr.encodable (p : Params) (i : Instr) : Bool :=
  i.wf && match i with
    | .bitmanipGroup w => (rowOf w).isNone && p.selectsBitmanip w
    | _ => true

end Sys2Proof
end

