-- ==== Sys2Proof/Machine/State.lean ====
section
/-!
DEFINITION. The state of the core as plain data, the reasons a step can stop, and machine
initialisation (R30 to R52, R300); after them what a hook call is given and the free value of its
effect (R195).

The state holds what the spec's section 10 lists, the binary image the machine borrows (R46, R306),
the two inputs of a step (R11), the parameters of the implementation (R7), and one field that is
the model's own: the counter of drawn values.
-/

namespace Sys2Proof.Machine

/-- A byte store: pairs of a byte's index and its value. The canonical form (`Memory.wf`) lists
indexes strictly rising and no byte equal to `unlistedByte`. -/
abbrev Memory := List Host.Cell

/-- What a byte no entry lists reads as (log entry 4). -/
def unlistedByte : Byte := 0

/-! ### Status (R41) -/

/-- The status bitset: five bits at the positions R41 gives. -/
abbrev Status := BitVec 5

/-- The five status bits. -/
inductive StatusBit where
  | native
  | jal
  | jalr
  | ret
  | branchTaken
  deriving DecidableEq, Repr

/-- One entry of the image's symbol table (R305): the name is a string of bytes. -/
structure Symbol where
  name    : List Byte
  address : Word
  size    : Nat
  deriving DecidableEq, Repr

/-- The binary image (R306): the origins, the initial global pointer, the code bytes and the
function symbol table. The machine borrows it; stores into the code region change its bytes. -/
structure Image where
  version     : List Byte
  codeOrigin  : Word
  dataOrigin  : Word
  sdataOrigin : Word
  gp          : Word
  /-- IMAGE_SIZE, the number of code bytes obtained (R309) -/
  size        : Nat
  /-- byte `o` is the byte at guest address `CODE_ORIGIN + o` (R46) -/
  code        : Memory
  funcs       : List Symbol
  deriving DecidableEq, Repr

/-- One memory-map slot (R47). `buf` is the index, in the host's memory, of the first byte of the
buffer the slot views. -/
structure Slot where
  active : Bool
  buf    : Nat
  size   : Nat
  base   : Word
  deriving DecidableEq, Repr

/-- Which of the four hooks are registered (R48). -/
structure Hooks where
  ecall    : Bool
  ebreak   : Bool
  atomic   : Bool
  bitmanip : Bool
  deriving DecidableEq, Repr

/-- The configuration of the echo subsystem (R50). -/
structure EchoConfig where
  /-- silent mode: held and set, read by nothing (DESIGN CHOICE, log entry 28) -/
  silent       : Bool
  /-- alternate register names: `true` selects the ABI names (DESIGN CHOICE, log entry 29) -/
  altRegNames  : Bool
  /-- the "alternate mnemonics" mode of R111 -/
  altMnemonics : Bool
  deriving DecidableEq, Repr

/-- The causes of the fault path, in the order of R273. No state records one (R271). -/
inductive FaultCause where
  | invalidEncoding
  | misalignedFetch
  | fetchOutsideCode
  deriving DecidableEq, Repr

/-- The reasons a step stops with a fault of the model. There is none: the core's own fault path is
a next state with the sticky flag set (R271), a register always holds a value (log entries 1 to 3),
and an address that does not exist is skipped (R82; log entry 20). -/
inductive Fault where
  deriving DecidableEq, Repr

/-- The reasons a step has no meaning (R17, R274). -/
inductive Refusal where
  /-- Raised by an arm of `exec` whose instruction has no meaning yet; safe. No arm raises it. -/
  | notModelled (mnemonic : String)
  /-- Raised by the step, with `exec_en = 1`, on a word that passes the length check and selects no
  instruction (R125); safe: the hardware's action is not known (log entry 17). -/
  | unrecognised
  /-- Raised by a load or store of 2, 4 or 8 bytes that starts inside a region and ends beyond it
  (R62); safe: the spec gives the access no effect (log entry 18). -/
  | accessOverrun
  deriving DecidableEq, Repr

/-- The state of the core. -/
structure State where
  /-- the integer registers (R30) -/
  x        : Vector Word 32
  /-- the float cells (R34) -/
  f        : Vector DWord 32
  /-- the program counter (R39) -/
  pc       : Word
  /-- the status bitset of the last step (R41) -/
  status   : Status
  /-- the sticky fault flag (R43) -/
  fault    : Bool
  /-- the executed-instruction counter (R44) -/
  counter  : DWord
  /-- the stack/heap buffer, byte `a` at guest address `a` (R45) -/
  stack    : Memory
  /-- the borrowed binary image, the code image in it (R46) -/
  image    : Image
  /-- the memory-map slot table (R47) -/
  slots    : Vector Slot 16
  /-- the bytes of the host's buffers, which slots view (R47, R73; DESIGN CHOICE, log entry 19) -/
  hostMem  : Memory
  /-- the registered hooks (R48) -/
  hooks    : Hooks
  /-- `exec_en` of the next step (R11; log entry 7) -/
  execEn   : Bool
  /-- `echo_en` of the next step (R11; log entry 7) -/
  echoEn   : Bool
  /-- the echo subsystem's configuration (R50) -/
  echoCfg  : EchoConfig
  /-- the parameters of the implementation (R7); no step changes them (log entry 6) -/
  params   : Params
  /-- the model's own: how many values have been drawn so far (log entry 8) -/
  draws    : Nat
  deriving DecidableEq, Repr

/-- A slot after machine initialisation: inactive (R52; log entry 25). -/
def Slot.empty : Slot := ⟨false, 0, 0, 0⟩

/-- No hook (R52). -/
def Hooks.none : Hooks := ⟨false, false, false, false⟩

/-- Machine initialisation with a binary image and the host's memory (R300, R52): every piece of
state at the value of R52, and at the value a log entry names where R52 gives none. DESIGN CHOICE
(log entry 31): R310 says that `CODE_ORIGIN` must be above 4 and not what happens otherwise; this
function takes such an image as it is, and `State.Inv` is false of the state it answers. -/
def State.initialise (p : Params) (img : Image) (host : Memory) : State where
  x       := Vector.replicate 32 0
  f       := Vector.replicate 32 0
  pc      := 0
  status  := 0
  fault   := false
  counter := 0
  stack   := []
  image   := img
  slots   := Vector.replicate 16 Slot.empty
  hostMem := host
  hooks   := Hooks.none
  execEn  := true
  echoEn  := false
  echoCfg := ⟨false, false, false⟩
  params  := p
  draws   := 0

/-- The image of a machine no program has been placed in: no code byte, the code origin of the
spec's test configuration (log entry 5). -/
def Image.empty : Image where
  version     := []
  codeOrigin  := 0x00010000
  dataOrigin  := 0
  sdataOrigin := 0
  gp          := 0
  size        := 0
  code        := []
  funcs       := []

/-- The machine right after initialisation with the empty image (R300, R52, log entry 5). -/
def State.reset : State := State.initialise Params.implementation Image.empty []

end Sys2Proof.Machine

namespace Sys2Proof

open Machine

/-- What one call of a hook is given: "the machine state and decoded operands" (R195). The word and
`pc`; every register; the image, the slot table, the parameters and the three byte stores, so that a
hook can read every byte that `resolve` maps, by its guest address; status, the counter and the
hooks; and the number of the call among the model's drawn values, so that nothing makes two calls
alike. Left out are the fault flag and `exec_en`, which have one value whenever a step calls a hook,
and the echo inputs, which are no state a rule reads (R50, R107; log entry 15). -/
structure HookInput where
  word    : Word
  pc      : Word
  x       : Vector Word 32
  f       : Vector DWord 32
  status  : Status
  counter : DWord
  stack   : Memory
  image   : Image
  slots   : Vector Slot 16
  host    : Memory
  hooks   : Hooks
  params  : Params
  draw    : Nat
  deriving DecidableEq, Repr

/-- What one call of a hook does (R195; log entry 15). -/
opaque Config.hookEffect : HookKind → HookInput → HookEffect

end Sys2Proof
end

