-- ==== Sys2Proof/Machine/Ops.lean ====
section
/-!
DEFINITION. The shared operations of the machine: byte stores, the register files, the address
resolver, reads and writes of guest memory, status bits, the ways a step ends, the fault path and
hook calls.
-/

namespace Sys2Proof.Machine

/-! ### Byte stores -/

/-- The byte at an index. -/
def Memory.read : Memory → Nat → Byte
  | [], _ => unlistedByte
  | (k, v) :: rest, a => if k = a then v else Memory.read rest a

/-- A byte put in front, unless it is what an unlisted byte reads as. -/
def Memory.list (a : Nat) (v : Byte) (rest : Memory) : Memory :=
  if v = unlistedByte then rest else (a, v) :: rest

/-- A byte store with the byte at an index replaced; the canonical form is kept. -/
def Memory.write : Memory → Nat → Byte → Memory
  | [], a, v => Memory.list a v []
  | (k, u) :: rest, a, v =>
    if k < a then (k, u) :: Memory.write rest a v
    else if k = a then Memory.list a v rest
    else Memory.list a v ((k, u) :: rest)

/-- The canonical form: indexes strictly rising, no entry equal to an unlisted byte. -/
def Memory.wf : Memory → Bool
  | [] => true
  | (k, v) :: rest => v != unlistedByte && rest.all (fun c => k < c.1) && Memory.wf rest

/-- Consecutive bytes written from an index upward. -/
def Memory.writeBytes : Memory → Nat → List Byte → Memory
  | m, _, [] => m
  | m, a, v :: vs => Memory.writeBytes (m.write a v) (a + 1) vs

/-- `n` consecutive bytes from an index upward, as a number, the first byte least significant
(R66). -/
def Memory.readLE (m : Memory) (a : Nat) : Nat → Nat
  | 0 => 0
  | n + 1 => (m.read a).toNat + 256 * Memory.readLE m (a + 1) n

/-- The bytes of a value of `8n` bits, least significant first (R67). -/
def leBytes (n : Nat) (v : BitVec (8 * n)) : List Byte :=
  (List.range n).map fun i => v.extractLsb' (8 * i) 8

/-- A list of bytes as a byte store, the first at an index. -/
def Memory.ofBytes (a : Nat) (bs : List Byte) : Memory := Memory.writeBytes [] a bs

/-! ### Registers (R15, R30 to R36) -/

/-- `x[r]`. Register 0 reads its stored value (R31). -/
def State.readX (s : State) (r : Reg) : Word := s.x[r]

/-- An unguarded write of `x[r]`, as the host and a hook make it (R31(b), R31(c)). -/
def State.pokeX (s : State) (r : Reg) (v : Word) : State := { s with x := s.x.set r v }

/-- `if rd != 0: x[rd] <- v`, as every handler writes it (R31). -/
def State.writeX (s : State) (r : Reg) (v : Word) : State := if r = 0 then s else s.pokeX r v

/-- The double view `fD[r]`, all 64 bits of the cell (R34). -/
def State.readFD (s : State) (r : Reg) : DWord := s.f[r]

/-- `fD[r] <- v` (R35). -/
def State.writeFD (s : State) (r : Reg) (v : DWord) : State := { s with f := s.f.set r v }

/-- The single view `fS[r]`, bits 31..0 of the cell (R35). -/
def State.readFS (s : State) (r : Reg) : Word := (s.readFD r).extractLsb' 0 32

/-- `fS[r] <- v`: bits 31..0 replaced, bits 63..32 kept (R35). Cell 0 is written like any other
(R36). -/
def State.writeFS (s : State) (r : Reg) (v : Word) : State :=
  s.writeFD r ((s.readFD r).extractLsb' 32 32 ++ v)

/-! ### Storage of the three regions -/

/-- The three byte stores guest memory lives in. -/
inductive Bank where
  | stack
  | code
  | host
  deriving DecidableEq, Repr

/-- A byte of storage. Two guest addresses can name one byte, if two slots view one host buffer. -/
structure Place where
  bank  : Bank
  index : Nat
  deriving DecidableEq, Repr

/-- The store of a bank. -/
def State.bank (s : State) : Bank → Memory
  | .stack => s.stack
  | .code => s.image.code
  | .host => s.hostMem

/-- The state with the store of a bank replaced. -/
def State.setBank (s : State) : Bank → Memory → State
  | .stack, m => { s with stack := m }
  | .code, m => { s with image := { s.image with code := m } }
  | .host, m => { s with hostMem := m }

/-- The byte of storage at a place. -/
def State.readPlace (s : State) (p : Place) : Byte := (s.bank p.bank).read p.index

/-! ### The address resolver (R10, R61 to R65) -/

/-- The regions of guest memory (R63). -/
inductive Region where
  | stack
  | slot (k : Fin 16)
  | code
  deriving DecidableEq, Repr

/-- A resolved address: the region, the offset in it, and how many bytes of it are left. -/
structure View where
  region : Region
  off    : Nat
  len    : Nat
  deriving DecidableEq, Repr

/-- `a[31:24]`. -/
def addrTag (a : Word) : BitVec 8 := a.extractLsb' 24 8

/-- `a[23:20]`, the slot a tagged address names. -/
def addrSlot (a : Word) : Fin 16 := (a.extractLsb' 20 4).toFin

/-- The base address of slot `k`: the tag, then `k`, then twenty 0 bits (R47). -/
def slotBase (tag : BitVec 8) (k : Fin 16) : Word := tag ++ (BitVec.ofFin k : BitVec 4) ++ 0#20

/-- The slot a guest address names. -/
def State.slotAt (s : State) (a : Word) : Slot := s.slots[addrSlot a]

/-- Does a guest address carry the tag and name an active slot. -/
def State.slotHit (s : State) (a : Word) : Bool :=
  (s.slotAt a).active && addrTag a == s.params.mapTag

/-- The resolver (R61): the stack buffer, then a mapped slot, then the code image, each test in
that order; `none` is `Unresolved`. -/
def State.resolve (s : State) (a : Word) : Option View :=
  if 4 < a.toNat ∧ a.toNat < s.image.codeOrigin.toNat then
    some ⟨.stack, a.toNat, s.image.codeOrigin.toNat - a.toNat⟩
  else if s.slotHit a then
    let off := (a - (s.slotAt a).base).toNat
    if off < (s.slotAt a).size then some ⟨.slot (addrSlot a), off, (s.slotAt a).size - off⟩
    else none
  else if s.image.codeOrigin.toNat ≤ a.toNat then
    let off := a.toNat - s.image.codeOrigin.toNat
    if off < s.image.size then some ⟨.code, off, s.image.size - off⟩ else none
  else none

/-- The first byte of storage of a view: `B_R[off]` (R66). -/
def State.viewPlace (s : State) (v : View) : Place :=
  match v.region with
  | .stack => ⟨.stack, v.off⟩
  | .slot k => ⟨.host, (s.slots[k]).buf + v.off⟩
  | .code => ⟨.code, v.off⟩

/-! ### Reads and writes of guest memory (R62, R66, R67) -/

/-- The three results of an access. -/
inductive Access (α : Type) where
  | done (r : α)
  | unresolved
  | overrun
  deriving DecidableEq, Repr

/-- The place an access of `n` bytes at `a` starts at: the resolver is applied to the first byte
only, and the access must end inside the region it starts in (R62). -/
def State.accessPlace (s : State) (a : Word) (n : Nat) : Access Place :=
  match s.resolve a with
  | none => .unresolved
  | some v => if v.len < n then .overrun else .done (s.viewPlace v)

/-- `MemRead(a, n)` (R66). -/
def State.memRead (s : State) (a : Word) (n : Nat) : Access (BitVec (8 * n)) :=
  match s.accessPlace a n with
  | .done p => .done (BitVec.ofNat (8 * n) ((s.bank p.bank).readLE p.index n))
  | .unresolved => .unresolved
  | .overrun => .overrun

/-- The bytes of a value stored from a place upward. -/
def State.storeAt (s : State) (p : Place) (bs : List Byte) : State :=
  s.setBank p.bank ((s.bank p.bank).writeBytes p.index bs)

/-- `MemWrite(a, n, v)` (R67). -/
def State.memWrite (s : State) (a : Word) (n : Nat) (v : BitVec (8 * n)) : Access State :=
  match s.accessPlace a n with
  | .done p => .done (s.storeAt p (leBytes n v))
  | .unresolved => .unresolved
  | .overrun => .overrun

/-! ### Status bits and the ends of a step -/

/-- The bit of a status name at the position R41 gives. -/
def StatusBit.mask : StatusBit → Status
  | .native => 0b00001
  | .jal => 0b00010
  | .jalr => 0b00100
  | .ret => 0b01000
  | .branchTaken => 0b10000

/-- The state with a status bit set. -/
def State.setStatus (s : State) (b : StatusBit) : State := { s with status := s.status ||| b.mask }

/-- Is a status bit set. -/
def State.hasStatus (s : State) (b : StatusBit) : Bool := s.status &&& b.mask != 0

/-- The executed-instruction counter plus one, modulo 2^64 (R44). -/
def State.countStep (s : State) : State := { s with counter := s.counter + 1 }

/-- `pc <- pc + 4` (R190), modulo 2^32 (R39). -/
def State.advancePc (s : State) : State := { s with pc := s.pc + 4 }

/-- The end of a step whose handler transferred no control: counter plus one, then `pc + 4` (R105,
R190). -/
def State.retire (s : State) : State := s.countStep.advancePc

/-- `transfer(t)` (R191), and the end of the step that made it: `pc` stands at `t`, status NATIVE is
set if `t` is the sentinel, and the counter goes up by one (R105, R190). -/
def State.transfer (s : State) (t : Word) : State :=
  (if t = s.params.nativePc then { s with pc := t }.setStatus .native else { s with pc := t }).countStep

/-- The fault path, `raise Fault(cause)` (R17, R271): the sticky flag and status NATIVE, nothing
else. The cause is an output, not state (R271). This is the core's only exception, and nothing
returns from it but re-initialisation (R278, R279). -/
def State.raiseFault (s : State) (_cause : FaultCause) : State :=
  { s with fault := true, status := StatusBit.mask .native }

/-! ### Loads and stores (R170, R207, R208) -/

/-- What one instruction answers. -/
abbrev Result := Host.Outcome State Fault Refusal

/-- A load of `n` bytes at `a`: the value read goes where `write` puts it, an unresolved address is
skipped (R82), an overrun is refused (R62). The read is made whatever the destination (R170). -/
def State.load (s : State) (a : Word) (n : Nat) (write : State → BitVec (8 * n) → State) : Result :=
  match s.memRead a n with
  | .done v => .next (write s v).retire
  | .unresolved => .next s.retire
  | .overrun => .refused .accessOverrun

/-- A store of the `n` bytes of `v` at `a`; an unresolved address is skipped (R82), an overrun is
refused (R62). -/
def State.store (s : State) (a : Word) (n : Nat) (v : BitVec (8 * n)) : Result :=
  match s.memWrite a n v with
  | .done s' => .next s'.retire
  | .unresolved => .next s.retire
  | .overrun => .refused .accessOverrun

/-! ### Hooks (R48, R195, R196) -/

/-- Is a hook registered. -/
def Hooks.present (h : Hooks) : HookKind → Bool
  | .ecall => h.ecall
  | .ebreak => h.ebreak
  | .atomic => h.atomic
  | .bitmanip => h.bitmanip

/-- A byte a hook writes: written where the address resolves, nothing where it does not (R195). -/
def State.hookByte (s : State) (a : Word) (v : Byte) : State :=
  match s.memWrite a 1 v with
  | .done s' => s'
  | _ => s

/-- The writes of a hook: registers (register 0 too), whole float cells, resolvable bytes (R195). -/
def State.applyHook (s : State) (e : HookEffect) : State :=
  let s := e.xs.foldl (fun s c => s.pokeX c.1 c.2) s
  let s := e.fs.foldl (fun s c => s.writeFD c.1 c.2) s
  e.bytes.foldl (fun s c => s.hookByte c.1 c.2) s

/-- The state with the draw counter advanced (log entry 8). -/
def State.draw (s : State) : State := { s with draws := s.draws + 1 }

/-- What a hook called with a word is given (R195). -/
def State.hookInput (s : State) (w : Word) : HookInput where
  word    := w
  pc      := s.pc
  x       := s.x
  f       := s.f
  status  := s.status
  counter := s.counter
  stack   := s.stack
  image   := s.image
  slots   := s.slots
  host    := s.hostMem
  hooks   := s.hooks
  params  := s.params
  draw    := s.draws

/-- A hook call with the word that makes it: what a registered hook writes is a free value, an
absent hook is a no-op (R195, R196). -/
def State.callHook (s : State) (k : HookKind) (w : Word) : State :=
  if s.hooks.present k then (s.applyHook (Config.hookEffect k (s.hookInput w))).draw else s

end Sys2Proof.Machine
end

