-- ==== Sys2Proof/Machine/Operands.lean ====
section
/-!
DEFINITION. The operand forms of the core: sign-extended immediates, the base plus displacement
address, branch and jump targets, shift amounts.
-/

namespace Sys2Proof.Machine

/-- A 12-bit immediate of the I or S format, sign-extended (R93, R94). -/
def sext12 (imm : BitVec 12) : Word := imm.signExtend 32

/-- The 20-bit immediate of the U format, shifted left by 12 (R96). -/
def upper20 (imm : BitVec 20) : Word := imm.setWidth 32 <<< 12

/-- The effective address `x[rs1] + imm`, modulo 2^32 (R170). -/
def State.ea (s : State) (rs1 : Reg) (imm : BitVec 12) : Word := s.readX rs1 + sext12 imm

/-- The branch target `pc + imm_SB` (R95, R180). -/
def State.branchTarget (s : State) (off : BitVec 13) : Word := s.pc + off.signExtend 32

/-- The JAL target `pc + imm_UJ` (R97, R180). -/
def State.jumpTarget (s : State) (off : BitVec 21) : Word := s.pc + off.signExtend 32

/-- The shift amount of an OP shift: `x[rs2][4:0]` (R98). -/
def State.shiftAmount (s : State) (rs2 : Reg) : Nat := ((s.readX rs2).extractLsb' 0 5).toNat

/-- `sext_n(v)`: a loaded value sign-extended to a word (R14). -/
def sextLoad {n : Nat} (v : BitVec n) : Word := v.signExtend 32

/-- `zext_n(v)`: a loaded value zero-extended to a word (R14). -/
def zextLoad {n : Nat} (v : BitVec n) : Word := v.setWidth 32

end Sys2Proof.Machine
end

