-- ==== Sys2Proof/Machine/Flags.lean ====
section
/-!
DEFINITION. Conditions and 0/1 results. The core has no condition flags; its comparisons give a
boolean to a branch (R181) or to a register (R135, R136, R146, R147, R222 to R224).
-/

namespace Sys2Proof.Machine

/-- `s32(a) < s32(b)` (R14). -/
def ltSigned (a b : Word) : Bool := a.toInt < b.toInt

/-- `u32(a) < u32(b)` (R14). -/
def ltUnsigned (a b : Word) : Bool := a.toNat < b.toNat

/-- `c ? 1 : 0`. -/
def boolWord (c : Bool) : Word := if c then 1 else 0

/-- The end of a branch (R181): if the condition holds, BRANCH_TAKEN and a transfer; if not, the
next word. -/
def State.branch (s : State) (c : Bool) (off : BitVec 13) : State :=
  if c then (s.setStatus .branchTaken).transfer (s.branchTarget off) else s.retire

end Sys2Proof.Machine
end

