-- ==== Sys2Proof/Machine/Control.lean ====
section
/-!
DEFINITION. Branches, JAL and JALR (R180 to R194).
-/

namespace Sys2Proof.Machine

/-- BEQ (R182). -/
def execBeq (rs1 rs2 : Reg) (off : BitVec 13) (s : State) : Result :=
  .next (s.branch (s.readX rs1 == s.readX rs2) off)

/-- BNE (R183). -/
def execBne (rs1 rs2 : Reg) (off : BitVec 13) (s : State) : Result :=
  .next (s.branch (s.readX rs1 != s.readX rs2) off)

/-- BLT (R184). -/
def execBlt (rs1 rs2 : Reg) (off : BitVec 13) (s : State) : Result :=
  .next (s.branch (ltSigned (s.readX rs1) (s.readX rs2)) off)

/-- BGE (R185). -/
def execBge (rs1 rs2 : Reg) (off : BitVec 13) (s : State) : Result :=
  .next (s.branch (!ltSigned (s.readX rs1) (s.readX rs2)) off)

/-- BLTU (R186). -/
def execBltu (rs1 rs2 : Reg) (off : BitVec 13) (s : State) : Result :=
  .next (s.branch (ltUnsigned (s.readX rs1) (s.readX rs2)) off)

/-- BGEU (R187). -/
def execBgeu (rs1 rs2 : Reg) (off : BitVec 13) (s : State) : Result :=
  .next (s.branch (!ltUnsigned (s.readX rs1) (s.readX rs2)) off)

/-- JAL (R188): the link is written whatever the target. -/
def execJal (rd : Reg) (off : BitVec 21) (s : State) : Result :=
  .next (((s.writeX rd (s.pc + 4)).setStatus .jal).transfer (s.jumpTarget off))

/-- Is a JALR the word 0x00008067, the canonical return `jalr x0, 0(x1)` (R189). -/
def isRet (rd rs1 : Reg) (imm : BitVec 12) : Bool := rd == 0 && rs1 == 1 && imm == 0

/-- JALR (R189): the target is read before `rd` is written, and bit 0 is kept. -/
def execJalr (rd rs1 : Reg) (imm : BitVec 12) (s : State) : Result :=
  let s' := (s.writeX rd (s.pc + 4)).setStatus .jalr
  .next ((if isRet rd rs1 imm then s'.setStatus .ret else s').transfer (s.ea rs1 imm))

end Sys2Proof.Machine
end

