-- ==== Sys2Proof/Machine/FloatDouble.lean ====
section
/-!
DEFINITION. Double precision: the stubs of R240 and the two instructions FLD_FSD_ACTION decides (R241,
R242).
-/

namespace Sys2Proof.Machine

/-- A double stub (R240): no operand is read and nothing changes but the counter and `pc`. -/
def State.stub (s : State) : Result := .next s.retire

/-- FLD_FSD_ACTION between its two candidates (R241, R242): the stub, or the answer of the 64-bit
move. -/
def State.stubOr (s : State) (move : Result) : Result :=
  match move with
  | .next t => .next (match s.params.fldFsd with | .stub => s.retire | .move64 => t)
  | .refused q => match s.params.fldFsd with | .stub => s.stub | .move64 => .refused q
  | .fault q => match s.params.fldFsd with | .stub => s.stub | .move64 => .fault q

/-- FLD (R241): the candidate FLD_FSD_ACTION says (log entry 14). -/
def execFld (rd rs1 : Reg) (imm : BitVec 12) (s : State) : Result :=
  s.stubOr (s.load (s.ea rs1 imm) 8 fun s v => s.writeFD rd v)

/-- FSD (R242): the candidate FLD_FSD_ACTION says (log entry 14). -/
def execFsd (rs1 rs2 : Reg) (imm : BitVec 12) (s : State) : Result :=
  s.stubOr (s.store (s.ea rs1 imm) 8 (s.readFD rs2))

/-- FADD.D (R243). -/
def execFaddD (_rd _rs1 _rs2 : Reg) (_rm : BitVec 3) (s : State) : Result :=
  s.stub

/-- FSUB.D (R244). -/
def execFsubD (_rd _rs1 _rs2 : Reg) (_rm : BitVec 3) (s : State) : Result :=
  s.stub

/-- FMUL.D (R245). -/
def execFmulD (_rd _rs1 _rs2 : Reg) (_rm : BitVec 3) (s : State) : Result :=
  s.stub

/-- FDIV.D (R246). -/
def execFdivD (_rd _rs1 _rs2 : Reg) (_rm : BitVec 3) (s : State) : Result :=
  s.stub

/-- FSQRT.D (R247). -/
def execFsqrtD (_rd _rs1 : Reg) (_rm : BitVec 3) (s : State) : Result :=
  s.stub

/-- FSGNJ.D (R248). -/
def execFsgnjD (_rd _rs1 _rs2 : Reg) (s : State) : Result :=
  s.stub

/-- FSGNJN.D (R249). -/
def execFsgnjnD (_rd _rs1 _rs2 : Reg) (s : State) : Result :=
  s.stub

/-- FSGNJX.D (R250). -/
def execFsgnjxD (_rd _rs1 _rs2 : Reg) (s : State) : Result :=
  s.stub

/-- FMIN.D (R251). -/
def execFminD (_rd _rs1 _rs2 : Reg) (s : State) : Result :=
  s.stub

/-- FMAX.D (R252). -/
def execFmaxD (_rd _rs1 _rs2 : Reg) (s : State) : Result :=
  s.stub

/-- FCVT.S.D (R253). -/
def execFcvtSD (_rd _rs1 : Reg) (_rm : BitVec 3) (s : State) : Result :=
  s.stub

/-- FCVT.D.S (R254). -/
def execFcvtDS (_rd _rs1 : Reg) (_rm : BitVec 3) (s : State) : Result :=
  s.stub

/-- FEQ.D (R255). -/
def execFeqD (_rd _rs1 _rs2 : Reg) (s : State) : Result :=
  s.stub

/-- FLT.D (R256). -/
def execFltD (_rd _rs1 _rs2 : Reg) (s : State) : Result :=
  s.stub

/-- FLE.D (R257). -/
def execFleD (_rd _rs1 _rs2 : Reg) (s : State) : Result :=
  s.stub

/-- FCLASS.D (R258). -/
def execFclassD (_rd _rs1 : Reg) (s : State) : Result :=
  s.stub

/-- FCVT.W.D (R259). -/
def execFcvtWD (_rd _rs1 : Reg) (_rm : BitVec 3) (s : State) : Result :=
  s.stub

/-- FCVT.WU.D (R260). -/
def execFcvtWuD (_rd _rs1 : Reg) (_rm : BitVec 3) (s : State) : Result :=
  s.stub

/-- FCVT.D.W (R261). -/
def execFcvtDW (_rd _rs1 : Reg) (_rm : BitVec 3) (s : State) : Result :=
  s.stub

/-- FCVT.D.WU (R262). -/
def execFcvtDWu (_rd _rs1 : Reg) (_rm : BitVec 3) (s : State) : Result :=
  s.stub

/-- FMADD.D (R263). -/
def execFmaddD (_rd _rs1 _rs2 _rs3 : Reg) (_rm : BitVec 3) (s : State) : Result :=
  s.stub

/-- FMSUB.D (R264). -/
def execFmsubD (_rd _rs1 _rs2 _rs3 : Reg) (_rm : BitVec 3) (s : State) : Result :=
  s.stub

/-- FNMSUB.D (R265). -/
def execFnmsubD (_rd _rs1 _rs2 _rs3 : Reg) (_rm : BitVec 3) (s : State) : Result :=
  s.stub

/-- FNMADD.D (R266). -/
def execFnmaddD (_rd _rs1 _rs2 _rs3 : Reg) (_rm : BitVec 3) (s : State) : Result :=
  s.stub

end Sys2Proof.Machine
end

