-- ==== Sys2Proof/Machine/Binary32.lean ====
section
/-!
DEFINITION. Binary32 arithmetic on 32-bit patterns (R18, R205): IEEE 754 with round to nearest, ties
to even, gradual underflow, no flags.

A finite pattern is read as an exact integer number of units of 2^-149, the smallest subnormal.
Every operation computes its exact result as an integer or a ratio of integers in that unit and
rounds once. `none` is a NaN result: which NaN pattern is written is NAN_RESULT's choice (R205).
-/

namespace Sys2Proof.Machine

/-! ### Reading a pattern -/

/-- The sign bit. -/
def f32Sign (w : Word) : Bool := w.msb

/-- The biased exponent, `v[30:23]`. -/
def f32Exp (w : Word) : Nat := (w.extractLsb' 23 8).toNat

/-- The fraction, `v[22:0]`. -/
def f32Frac (w : Word) : Nat := (w.extractLsb' 0 23).toNat

/-- `isNaN(v)` (R18). -/
def isNaN (w : Word) : Bool := f32Exp w == 0xFF && f32Frac w != 0

/-- Is the pattern an infinity. -/
def isInf (w : Word) : Bool := f32Exp w == 0xFF && f32Frac w == 0

/-- Is the pattern +0 or -0: `v[30:0] = 0` (R212, R217). -/
def isZero (w : Word) : Bool := w.extractLsb' 0 31 == 0

/-- The magnitude in units of 2^-149. An infinity gets 2^277, above every finite magnitude, so that
comparisons need no case for it. -/
def f32Mag (w : Word) : Nat :=
  if f32Exp w = 0 then f32Frac w else (f32Frac w + 0x800000) <<< (f32Exp w - 1)

/-- The value in units of 2^-149; -0 and +0 are both 0. -/
def f32Val (w : Word) : Int := if f32Sign w then -(f32Mag w : Int) else f32Mag w

/-- The pattern with its sign bit flipped (R228, R230). -/
def f32Neg (w : Word) : Word := w ^^^ 0x80000000#32

/-! ### Making a pattern -/

/-- The pattern of a sign and the low 31 bits. -/
def f32Pack (neg : Bool) (m : Nat) : Word :=
  BitVec.ofNat 32 ((if neg then 0x80000000 else 0) + m)

/-- An infinity. -/
def f32Inf (neg : Bool) : Word := f32Pack neg 0x7F800000

/-- One if a remainder `r` of division by `d` rounds the quotient `q` up to nearest, ties to even. -/
def tieEvenUp (q r d : Nat) : Nat := if 2 * r > d ∨ (2 * r = d ∧ q % 2 = 1) then 1 else 0

/-- The low 31 bits of the pattern nearest to `num / den` units of 2^-149, ties to even; infinity
from the overflow threshold upward. With `e` chosen so that the significand has at most 24 bits, the
31 bits are `e * 2^23 + significand` for subnormal and normal results alike, and a significand that
rounds up to 2^24 carries into the exponent by that sum. -/
def roundMag (num den : Nat) : Nat :=
  let e := Nat.log2 (num / den) - 23
  let d := den <<< e
  let b := e <<< 23 + (num / d + tieEvenUp (num / d) (num % d) d)
  if b < 0x7F800000 then b else 0x7F800000

/-- The pattern nearest to `v / den` units; an exact zero gets the sign `zeroNeg`. -/
def roundVal (v : Int) (den : Nat) (zeroNeg : Bool) : Word :=
  if v = 0 then f32Pack zeroNeg 0 else f32Pack (v < 0) (roundMag v.natAbs den)

/-- 2^149: how many units make 1.0. -/
def f32One : Nat := 1 <<< 149

/-! ### Arithmetic -/

/-- `f32_add`. An exact zero sum is -0 only for two negative zeros (round to nearest). -/
def f32Add (a b : Word) : Option Word :=
  if isNaN a || isNaN b then none
  else if isInf a then (if isInf b && f32Sign a != f32Sign b then none else some a)
  else if isInf b then some b
  else some (roundVal (f32Val a + f32Val b) 1 (f32Sign a && f32Sign b))

/-- `f32_sub`. -/
def f32Sub (a b : Word) : Option Word := f32Add a (f32Neg b)

/-- `f32_mul`. -/
def f32Mul (a b : Word) : Option Word :=
  let neg := f32Sign a != f32Sign b
  if isNaN a || isNaN b then none
  else if isInf a || isInf b then (if isZero a || isZero b then none else some (f32Inf neg))
  else some (f32Pack neg (roundMag (f32Mag a * f32Mag b) f32One))

/-- `f32_div`, IEEE for every divisor; R212 handles a zero divisor before it comes here. -/
def f32Div (a b : Word) : Option Word :=
  let neg := f32Sign a != f32Sign b
  if isNaN a || isNaN b then none
  else if isInf a then (if isInf b then none else some (f32Inf neg))
  else if isInf b then some (f32Pack neg 0)
  else if isZero b then (if isZero a then none else some (f32Inf neg))
  else some (f32Pack neg (roundMag (f32Mag a * f32One) (f32Mag b)))

/-- The integer square root below `2^k`, one bit of it at a time from bit `k - 1` down; `r` is what
has been found so far. -/
def isqrtFrom : Nat → Nat → Nat → Nat
  | 0, _, r => r
  | k + 1, n, r =>
    let c := r + 1 <<< k
    isqrtFrom k n (if c * c ≤ n then c else r)

/-- The integer square root of a number below `2^428`. -/
def isqrt (n : Nat) : Nat := isqrtFrom 214 n 0

/-- The square root of `n` units squared, as a number of half units: exact if `n` is a square, else
the odd number between the two nearest integers, which rounds the same way. -/
def sqrtHalves (n : Nat) : Nat :=
  if isqrt n * isqrt n = n then 2 * isqrt n else 2 * isqrt n + 1

/-- `f32_sqrt`. -/
def f32Sqrt (a : Word) : Option Word :=
  if isNaN a then none
  else if isZero a then some a
  else if f32Sign a then none
  else if isInf a then some a
  else some (f32Pack false (roundMag (sqrtHalves (f32Mag a * f32One)) 2))

/-- `f32_fma(a, b, c)`: the exact `a*b + c` rounded once. -/
def f32Fma (a b c : Word) : Option Word :=
  let neg := f32Sign a != f32Sign b
  if isNaN a || isNaN b || isNaN c then none
  else if isInf a || isInf b then
    if isZero a || isZero b then none
    else if isInf c && f32Sign c != neg then none
    else some (f32Inf neg)
  else if isInf c then some c
  else some (roundVal (f32Val a * f32Val b + f32Val c * f32One) f32One (neg && f32Sign c))

/-- The fused operation under FMA_FUSED (R228). -/
def f32FusedAs : FmaRoundings → Word → Word → Word → Option Word
  | .one, a, b, c => f32Fma a b c
  | .two, a, b, c => (f32Mul a b).bind fun p => f32Add p c

/-! ### Comparisons (R205: quiet, a NaN operand gives false, +0 = -0) -/

/-- `f32_eq`. -/
def f32Eq (a b : Word) : Bool := !isNaN a && !isNaN b && f32Val a == f32Val b

/-- `f32_lt`. -/
def f32Lt (a b : Word) : Bool := !isNaN a && !isNaN b && decide (f32Val a < f32Val b)

/-- `f32_le`. -/
def f32Le (a b : Word) : Bool := !isNaN a && !isNaN b && decide (f32Val a ≤ f32Val b)

/-! ### Conversions -/

/-- `f32_from_s32` and `f32_from_u32` on the integer read (R225, R226). -/
def f32FromInt (n : Int) : Word := roundVal (n * f32One) 1 false

/-- Does a magnitude `q + r/d` round up to the next integer. -/
def roundsUp (mode : Rounding) (neg : Bool) (q r d : Nat) : Bool :=
  match mode with
  | .nearestEven => 2 * r > d || (2 * r == d && q % 2 == 1)
  | .towardZero => false
  | .down => neg && r != 0
  | .up => !neg && r != 0
  | .nearestAway => 2 * r ≥ d

/-- `round(value(a), mode)`: the value of a pattern that is not a NaN as an integer (R219). An
infinity gives an integer beyond every integer range. -/
def f32ToInt (mode : Rounding) (a : Word) : Int :=
  let q := f32Mag a / f32One
  let r := f32Mag a % f32One
  let m := q + if roundsUp mode (f32Sign a) q r f32One then 1 else 0
  if f32Sign a then -(m : Int) else m

/-! ### The values the spec leaves open -/

/-- NAN_RESULT (R205): some NaN pattern, the same for the same draw; nothing says which. -/
def nanResult (draw : Nat) : Word :=
  if isNaN (Config.nanPattern draw) then Config.nanPattern draw else 0x7FC00000

/-- FDIV0_RESULT (R212): +0 or -0; nothing says which. -/
def fdiv0Result (a b : Word) : Word := f32Pack (Config.fdiv0Negative a b) 0

/-- FDIV.S as R212 writes it: a zero divisor gives a zero for every dividend, NaN included. -/
def f32DivS (a b : Word) : Option Word :=
  if isZero b then some (fdiv0Result a b) else f32Div a b

/-- FMIN.S and FMAX.S (R217, R218): the special cases are FMINMAX_SPECIAL's. -/
def f32MinMax (op : MinMax) (a b : Word) : Word :=
  if isNaN a || isNaN b || (isZero a && isZero b) then Config.fminmaxSpecial op a b
  else match op with
    | .min => if f32Val a ≤ f32Val b then a else b
    | .max => if f32Val b ≤ f32Val a then a else b

/-- FCVT.W.S (R219): F2I_INVALID for a NaN or a value out of range. -/
def s32FromF32 (mode : Rounding) (a : Word) : Word :=
  let r := f32ToInt mode a
  if isNaN a || r < -0x80000000 || r > 0x7FFFFFFF then Config.f2iInvalid true a
  else BitVec.ofInt 32 r

/-- FCVT.WU.S (R220): F2I_INVALID for a NaN or a value out of range. -/
def u32FromF32 (mode : Rounding) (a : Word) : Word :=
  let r := f32ToInt mode a
  if isNaN a || r < 0 || r > 0xFFFFFFFF then Config.f2iInvalid false a
  else BitVec.ofInt 32 r

end Sys2Proof.Machine
end

