-- ==== Sys2Proof/Machine/FloatSingle.lean ====
section
/-!
DEFINITION. Single-precision floating point (R205 to R232). Every float write is of bits 31..0 of the cell,
cell 0 included (R36); `rm` is ignored but by the conversions to integers (R205).
-/

namespace Sys2Proof.Machine

/-- `fS[rd] <- r`, where `none` is a NaN result: NAN_RESULT's pattern is drawn (R205). -/
def State.writeResult (s : State) (rd : Reg) : Option Word → State
  | some v => s.writeFS rd v
  | none => (s.writeFS rd (nanResult s.draws)).draw

/-- The rounding direction F2I_ROUND gives for an `rm` field (R219, R220). -/
def State.f2iMode (s : State) (rm : BitVec 3) : Rounding := s.params.f2iRound[(rm.toFin : Fin 8)]

/-- The fused operation of R228. -/
def State.fused (s : State) (a b c : Word) : Option Word := f32FusedAs s.params.fmaFused a b c

/-- FLW (R207). -/
def execFlw (rd rs1 : Reg) (imm : BitVec 12) (s : State) : Result :=
  s.load (s.ea rs1 imm) 4 fun s v => s.writeFS rd (zextLoad v)

/-- FSW (R208). -/
def execFsw (rs1 rs2 : Reg) (imm : BitVec 12) (s : State) : Result :=
  s.store (s.ea rs1 imm) 4 (s.readFS rs2)

/-- FADD.S (R209). -/
def execFaddS (rd rs1 rs2 : Reg) (_rm : BitVec 3) (s : State) : Result :=
  .next (s.writeResult rd (f32Add (s.readFS rs1) (s.readFS rs2))).retire

/-- FSUB.S (R210). -/
def execFsubS (rd rs1 rs2 : Reg) (_rm : BitVec 3) (s : State) : Result :=
  .next (s.writeResult rd (f32Sub (s.readFS rs1) (s.readFS rs2))).retire

/-- FMUL.S (R211). -/
def execFmulS (rd rs1 rs2 : Reg) (_rm : BitVec 3) (s : State) : Result :=
  .next (s.writeResult rd (f32Mul (s.readFS rs1) (s.readFS rs2))).retire

/-- FDIV.S (R212). -/
def execFdivS (rd rs1 rs2 : Reg) (_rm : BitVec 3) (s : State) : Result :=
  .next (s.writeResult rd (f32DivS (s.readFS rs1) (s.readFS rs2))).retire

/-- FSQRT.S (R213). -/
def execFsqrtS (rd rs1 : Reg) (_rm : BitVec 3) (s : State) : Result :=
  .next (s.writeResult rd (f32Sqrt (s.readFS rs1))).retire

/-- The pattern with sign bit `sign` and the other bits of `a` (R214). -/
def withSign (sign : BitVec 1) (a : Word) : Word := sign ++ a.extractLsb' 0 31

/-- The sign bit of a pattern as one bit. -/
def signBit (a : Word) : BitVec 1 := a.extractLsb' 31 1

/-- FSGNJ.S (R214). -/
def execFsgnjS (rd rs1 rs2 : Reg) (s : State) : Result :=
  .next (s.writeFS rd (withSign (signBit (s.readFS rs2)) (s.readFS rs1))).retire

/-- FSGNJN.S (R215). -/
def execFsgnjnS (rd rs1 rs2 : Reg) (s : State) : Result :=
  .next (s.writeFS rd (withSign (~~~signBit (s.readFS rs2)) (s.readFS rs1))).retire

/-- FSGNJX.S (R216). -/
def execFsgnjxS (rd rs1 rs2 : Reg) (s : State) : Result :=
  .next (s.writeFS rd (withSign (signBit (s.readFS rs1) ^^^ signBit (s.readFS rs2)) (s.readFS rs1))).retire

/-- FMIN.S (R217). -/
def execFminS (rd rs1 rs2 : Reg) (s : State) : Result :=
  .next (s.writeFS rd (f32MinMax .min (s.readFS rs1) (s.readFS rs2))).retire

/-- FMAX.S (R218). -/
def execFmaxS (rd rs1 rs2 : Reg) (s : State) : Result :=
  .next (s.writeFS rd (f32MinMax .max (s.readFS rs1) (s.readFS rs2))).retire

/-- FCVT.W.S (R219). -/
def execFcvtWS (rd rs1 : Reg) (rm : BitVec 3) (s : State) : Result :=
  .next (s.writeX rd (s32FromF32 (s.f2iMode rm) (s.readFS rs1))).retire

/-- FCVT.WU.S (R220). -/
def execFcvtWuS (rd rs1 : Reg) (rm : BitVec 3) (s : State) : Result :=
  .next (s.writeX rd (u32FromF32 (s.f2iMode rm) (s.readFS rs1))).retire

/-- FMV.X.W (R221). -/
def execFmvXW (rd rs1 : Reg) (s : State) : Result :=
  .next (s.writeX rd (s.readFS rs1)).retire

/-- FEQ.S (R222). -/
def execFeqS (rd rs1 rs2 : Reg) (s : State) : Result :=
  .next (s.writeX rd (boolWord (f32Eq (s.readFS rs1) (s.readFS rs2)))).retire

/-- FLT.S (R223). -/
def execFltS (rd rs1 rs2 : Reg) (s : State) : Result :=
  .next (s.writeX rd (boolWord (f32Lt (s.readFS rs1) (s.readFS rs2)))).retire

/-- FLE.S (R224). -/
def execFleS (rd rs1 rs2 : Reg) (s : State) : Result :=
  .next (s.writeX rd (boolWord (f32Le (s.readFS rs1) (s.readFS rs2)))).retire

/-- FCVT.S.W (R225). -/
def execFcvtSW (rd rs1 : Reg) (_rm : BitVec 3) (s : State) : Result :=
  .next (s.writeFS rd (f32FromInt (s.readX rs1).toInt)).retire

/-- FCVT.S.WU (R226). -/
def execFcvtSWu (rd rs1 : Reg) (_rm : BitVec 3) (s : State) : Result :=
  .next (s.writeFS rd (f32FromInt (s.readX rs1).toNat)).retire

/-- FMV.W.X (R227). -/
def execFmvWX (rd rs1 : Reg) (s : State) : Result :=
  .next (s.writeFS rd (s.readX rs1)).retire

/-- FMADD.S (R229). -/
def execFmaddS (rd rs1 rs2 rs3 : Reg) (_rm : BitVec 3) (s : State) : Result :=
  .next (s.writeResult rd (s.fused (s.readFS rs1) (s.readFS rs2) (s.readFS rs3))).retire

/-- FMSUB.S (R230). -/
def execFmsubS (rd rs1 rs2 rs3 : Reg) (_rm : BitVec 3) (s : State) : Result :=
  .next (s.writeResult rd (s.fused (s.readFS rs1) (s.readFS rs2) (f32Neg (s.readFS rs3)))).retire

/-- FNMSUB.S (R231). -/
def execFnmsubS (rd rs1 rs2 rs3 : Reg) (_rm : BitVec 3) (s : State) : Result :=
  .next (s.writeResult rd (s.fused (f32Neg (s.readFS rs1)) (s.readFS rs2) (s.readFS rs3))).retire

/-- FNMADD.S (R232). -/
def execFnmaddS (rd rs1 rs2 rs3 : Reg) (_rm : BitVec 3) (s : State) : Result :=
  .next (s.writeResult rd (s.fused (f32Neg (s.readFS rs1)) (s.readFS rs2) (f32Neg (s.readFS rs3)))).retire

end Sys2Proof.Machine
end

