-- ==== Sys2Proof/Machine/IntAlu.lean ====
section
/-!
DEFINITION. Upper immediates, OP-IMM and the base part of OP (R132 to R152). All arithmetic is on 32-bit
patterns modulo 2^32 (R130); every write is guarded by `rd != 0` (R131).
-/

namespace Sys2Proof.Machine

/-- LUI (R132). -/
def execLui (rd : Reg) (imm : BitVec 20) (s : State) : Result :=
  .next (s.writeX rd (upper20 imm)).retire

/-- AUIPC (R133). -/
def execAuipc (rd : Reg) (imm : BitVec 20) (s : State) : Result :=
  .next (s.writeX rd (s.pc + upper20 imm)).retire

/-- ADDI (R134). -/
def execAddi (rd rs1 : Reg) (imm : BitVec 12) (s : State) : Result :=
  .next (s.writeX rd (s.readX rs1 + sext12 imm)).retire

/-- SLTI (R135). -/
def execSlti (rd rs1 : Reg) (imm : BitVec 12) (s : State) : Result :=
  .next (s.writeX rd (boolWord (ltSigned (s.readX rs1) (sext12 imm)))).retire

/-- SLTIU (R136). -/
def execSltiu (rd rs1 : Reg) (imm : BitVec 12) (s : State) : Result :=
  .next (s.writeX rd (boolWord (ltUnsigned (s.readX rs1) (sext12 imm)))).retire

/-- XORI (R137). -/
def execXori (rd rs1 : Reg) (imm : BitVec 12) (s : State) : Result :=
  .next (s.writeX rd (s.readX rs1 ^^^ sext12 imm)).retire

/-- ORI (R138). -/
def execOri (rd rs1 : Reg) (imm : BitVec 12) (s : State) : Result :=
  .next (s.writeX rd (s.readX rs1 ||| sext12 imm)).retire

/-- ANDI (R139). -/
def execAndi (rd rs1 : Reg) (imm : BitVec 12) (s : State) : Result :=
  .next (s.writeX rd (s.readX rs1 &&& sext12 imm)).retire

/-- SLLI (R140). -/
def execSlli (rd rs1 : Reg) (shamt : BitVec 5) (s : State) : Result :=
  .next (s.writeX rd (s.readX rs1 <<< shamt.toNat)).retire

/-- SRLI (R141). -/
def execSrli (rd rs1 : Reg) (shamt : BitVec 5) (s : State) : Result :=
  .next (s.writeX rd (s.readX rs1 >>> shamt.toNat)).retire

/-- SRAI (R142). -/
def execSrai (rd rs1 : Reg) (shamt : BitVec 5) (s : State) : Result :=
  .next (s.writeX rd ((s.readX rs1).sshiftRight shamt.toNat)).retire

/-- ADD (R143). -/
def execAdd (rd rs1 rs2 : Reg) (s : State) : Result :=
  .next (s.writeX rd (s.readX rs1 + s.readX rs2)).retire

/-- SUB (R144). -/
def execSub (rd rs1 rs2 : Reg) (s : State) : Result :=
  .next (s.writeX rd (s.readX rs1 - s.readX rs2)).retire

/-- SLL (R145). -/
def execSll (rd rs1 rs2 : Reg) (s : State) : Result :=
  .next (s.writeX rd (s.readX rs1 <<< s.shiftAmount rs2)).retire

/-- SLT (R146). -/
def execSlt (rd rs1 rs2 : Reg) (s : State) : Result :=
  .next (s.writeX rd (boolWord (ltSigned (s.readX rs1) (s.readX rs2)))).retire

/-- SLTU (R147). -/
def execSltu (rd rs1 rs2 : Reg) (s : State) : Result :=
  .next (s.writeX rd (boolWord (ltUnsigned (s.readX rs1) (s.readX rs2)))).retire

/-- XOR (R148). -/
def execXor (rd rs1 rs2 : Reg) (s : State) : Result :=
  .next (s.writeX rd (s.readX rs1 ^^^ s.readX rs2)).retire

/-- SRL (R149). -/
def execSrl (rd rs1 rs2 : Reg) (s : State) : Result :=
  .next (s.writeX rd (s.readX rs1 >>> s.shiftAmount rs2)).retire

/-- SRA (R150). -/
def execSra (rd rs1 rs2 : Reg) (s : State) : Result :=
  .next (s.writeX rd ((s.readX rs1).sshiftRight (s.shiftAmount rs2))).retire

/-- OR (R151). -/
def execOr (rd rs1 rs2 : Reg) (s : State) : Result :=
  .next (s.writeX rd (s.readX rs1 ||| s.readX rs2)).retire

/-- AND (R152). -/
def execAnd (rd rs1 rs2 : Reg) (s : State) : Result :=
  .next (s.writeX rd (s.readX rs1 &&& s.readX rs2)).retire

end Sys2Proof.Machine
end

