-- ==== Sys2Proof/Machine/LoadStore.lean ====
section
/-!
DEFINITION. Integer loads and stores (R170 to R179): base plus displacement, no alignment (R69), an
unresolved address skipped (R82), an overrun refused (R62).
-/

namespace Sys2Proof.Machine

/-- LB (R171). -/
def execLb (rd rs1 : Reg) (imm : BitVec 12) (s : State) : Result :=
  s.load (s.ea rs1 imm) 1 fun s v => s.writeX rd (sextLoad v)

/-- LH (R172). -/
def execLh (rd rs1 : Reg) (imm : BitVec 12) (s : State) : Result :=
  s.load (s.ea rs1 imm) 2 fun s v => s.writeX rd (sextLoad v)

/-- LW (R173). -/
def execLw (rd rs1 : Reg) (imm : BitVec 12) (s : State) : Result :=
  s.load (s.ea rs1 imm) 4 fun s v => s.writeX rd (zextLoad v)

/-- LBU (R174). -/
def execLbu (rd rs1 : Reg) (imm : BitVec 12) (s : State) : Result :=
  s.load (s.ea rs1 imm) 1 fun s v => s.writeX rd (zextLoad v)

/-- LHU (R175). -/
def execLhu (rd rs1 : Reg) (imm : BitVec 12) (s : State) : Result :=
  s.load (s.ea rs1 imm) 2 fun s v => s.writeX rd (zextLoad v)

/-- SB (R176). -/
def execSb (rs1 rs2 : Reg) (imm : BitVec 12) (s : State) : Result :=
  s.store (s.ea rs1 imm) 1 ((s.readX rs2).extractLsb' 0 8)

/-- SH (R177). -/
def execSh (rs1 rs2 : Reg) (imm : BitVec 12) (s : State) : Result :=
  s.store (s.ea rs1 imm) 2 ((s.readX rs2).extractLsb' 0 16)

/-- SW (R178). -/
def execSw (rs1 rs2 : Reg) (imm : BitVec 12) (s : State) : Result :=
  s.store (s.ea rs1 imm) 4 (s.readX rs2)

end Sys2Proof.Machine
end

