-- ==== Sys2Proof/Machine/MulDiv.lean ====
section
/-!
DEFINITION. Multiply and divide (R160 to R169). Operands are read before the guarded write (R160).
-/

namespace Sys2Proof.Machine

/-- The low word of a product (R161). -/
def mulLow (a b : Word) : Word := a * b

/-- The high word of an exact 64-bit product (R162 to R164). -/
def highWord (p : Int) : Word := (BitVec.ofInt 64 p).extractLsb' 32 32

/-- The signed quotient of R165: 0 for a zero divisor, wrapped for INT32_MIN / -1, else truncated
toward zero. -/
def divSigned (a b : Word) : Word :=
  if b = 0 then 0
  else if a.toInt = -0x80000000 ∧ b.toInt = -1 then BitVec.ofInt 32 (-0x80000000)
  else BitVec.ofInt 32 (a.toInt.tdiv b.toInt)

/-- The signed remainder of R167: 0 for a zero divisor and for INT32_MIN / -1, else with the sign of
the dividend. -/
def remSigned (a b : Word) : Word :=
  if b = 0 then 0
  else if a.toInt = -0x80000000 ∧ b.toInt = -1 then 0
  else BitVec.ofInt 32 (a.toInt - b.toInt * a.toInt.tdiv b.toInt)

/-- The unsigned quotient of R166: 0 for a zero divisor. -/
def divUnsigned (a b : Word) : Word := if b = 0 then 0 else BitVec.ofNat 32 (a.toNat / b.toNat)

/-- The unsigned remainder of R168: 0 for a zero divisor. -/
def remUnsigned (a b : Word) : Word := if b = 0 then 0 else BitVec.ofNat 32 (a.toNat % b.toNat)

/-- MUL (R161). -/
def execMul (rd rs1 rs2 : Reg) (s : State) : Result :=
  .next (s.writeX rd (mulLow (s.readX rs1) (s.readX rs2))).retire

/-- MULH (R162). -/
def execMulh (rd rs1 rs2 : Reg) (s : State) : Result :=
  .next (s.writeX rd (highWord ((s.readX rs1).toInt * (s.readX rs2).toInt))).retire

/-- MULHSU (R163). -/
def execMulhsu (rd rs1 rs2 : Reg) (s : State) : Result :=
  .next (s.writeX rd (highWord ((s.readX rs1).toInt * (s.readX rs2).toNat))).retire

/-- MULHU (R164). -/
def execMulhu (rd rs1 rs2 : Reg) (s : State) : Result :=
  .next (s.writeX rd (highWord ((s.readX rs1).toNat * (s.readX rs2).toNat))).retire

/-- DIV (R165). -/
def execDiv (rd rs1 rs2 : Reg) (s : State) : Result :=
  .next (s.writeX rd (divSigned (s.readX rs1) (s.readX rs2))).retire

/-- DIVU (R166). -/
def execDivu (rd rs1 rs2 : Reg) (s : State) : Result :=
  .next (s.writeX rd (divUnsigned (s.readX rs1) (s.readX rs2))).retire

/-- REM (R167). -/
def execRem (rd rs1 rs2 : Reg) (s : State) : Result :=
  .next (s.writeX rd (remSigned (s.readX rs1) (s.readX rs2))).retire

/-- REMU (R168). -/
def execRemu (rd rs1 rs2 : Reg) (s : State) : Result :=
  .next (s.writeX rd (remUnsigned (s.readX rs1) (s.readX rs2))).retire

end Sys2Proof.Machine
end

