-- ==== Sys2Proof/Machine/System.lean ====
section
/-!
DEFINITION. ECALL, EBREAK and the two extension groups, each of which calls a hook (R195 to R202).
-/

namespace Sys2Proof.Machine

/-- ECALL (R197). -/
def execEcall (s : State) : Result :=
  .next (s.callHook .ecall (encode .ecall)).retire

/-- EBREAK (R198). -/
def execEbreak (s : State) : Result :=
  .next (s.callHook .ebreak (encode .ebreak)).retire

/-- ATOMIC-GROUP (R199). -/
def execAtomicGroup (rd rs1 rs2 : Reg) (funct3 : BitVec 3) (funct7 : BitVec 7) (s : State) : Result :=
  .next (s.callHook .atomic (encode (.atomicGroup rd rs1 rs2 funct3 funct7))).retire

/-- BITMANIP-GROUP (R201). -/
def execBitmanipGroup (w : Word) (s : State) : Result :=
  .next (s.callHook .bitmanip w).retire

end Sys2Proof.Machine
end

