-- ==== Sys2Proof/Machine/Engine.lean ====
section
/-!
DEFINITION. The engine: fetch, the step of R105, and the placing of a word where the next step
fetches it.
-/

namespace Sys2Proof.Machine

/-- Is the word at `pc` wholly inside the code image (R75). -/
def State.fetchInside (s : State) : Bool :=
  decide (s.image.codeOrigin.toNat ≤ s.pc.toNat) &&
  decide (s.pc.toNat - s.image.codeOrigin.toNat + 4 ≤ s.image.size)

/-- Is `pc` a multiple of 4 (R75). -/
def State.pcAligned (s : State) : Bool := s.pc.extractLsb' 0 2 == 0#2

/-- The word of the code image at `pc`, little-endian (R75, R68). -/
def State.codeWord (s : State) : Word :=
  BitVec.ofNat 32 (s.image.code.readLE (s.pc.toNat - s.image.codeOrigin.toNat) 4)

/-- `fetch(pc)` (R75): a word, or the cause of a fault, misalignment tested first. -/
def State.fetch (s : State) : Except FaultCause Word :=
  if !s.pcAligned then .error .misalignedFetch
  else if !s.fetchInside then .error .fetchOutsideCode
  else .ok s.codeWord

/-- Status recomputed to zero at the start of a step (R41, R105). -/
def State.clearStatus (s : State) : State := { s with status := 0 }

/-- A step on a word that passes the length check: with `exec_en` the instruction's meaning, and a
refusal if the word selects none (R125); without it only `pc + 4` (R106). -/
def State.runWord (s : State) (w : Word) : Result :=
  if s.execEn then
    match decode s.params w with
    | some i => exec i s
    | none => .refused .unrecognised
  else .next s.advancePc

/-- A step with the sticky flag set on entry: status NATIVE, nothing else (R272). -/
def State.stuckStep (s : State) : State := { s with status := StatusBit.mask .native }

/-- One step (R105), in the order of R277: the sticky flag, the fetch, the length check, decoding,
the instruction. What `echo_en` renders is no state (R107). -/
def State.runStep (s : State) : Result :=
  if s.fault then .next s.stuckStep
  else
    let s := s.clearStatus
    match s.fetch with
    | .error c => .next (s.raiseFault c)
    | .ok w => if is32 w then s.runWord w else .next (s.raiseFault .invalidEncoding)

/-! ### Placing a word to run next (log entry 5) -/

/-- The state with `pc` at an aligned word inside the code image. Where `pc` names one already
nothing changes; else `pc` goes to the first aligned address of the code region, and the image is
made long enough to hold the word. -/
def State.fetchSpot (s : State) : State :=
  if s.pcAligned && s.fetchInside then s
  else
    let origin : Word := if s.image.codeOrigin.toNat ≤ 0xFFFFFFFC then s.image.codeOrigin else 0xFFFFFFFC
    let spot : Word := BitVec.ofNat 32 ((origin.toNat + 3) / 4 * 4)
    { s with
      pc := spot
      image := { s.image with
        codeOrigin := origin
        size := max s.image.size (spot.toNat - origin.toNat + 4) } }

/-- The state with a word at `pc`, ready to run: no sticky fault, `exec_en` set. -/
def State.placeWord (s : State) (w : Word) : State :=
  let s := s.fetchSpot
  { s with
    fault := false
    execEn := true
    image := { s.image with
      code := s.image.code.writeBytes (s.pc.toNat - s.image.codeOrigin.toNat) (bytesOfWord w) } }

end Sys2Proof.Machine
end

