-- ==== Sys2Proof/Machine/Step.lean ====
section
/-!
DEFINITION. The step function of the machine, and the placing of an instruction for the next step.
Both are calls of Machine/Engine.lean.
-/

namespace Sys2Proof.Machine

/-- One step of the core, with the inputs `exec_en` and `echo_en` the state holds (R105). -/
def step (s : State) : Host.Outcome State Fault Refusal := s.runStep

/-- The state with an instruction word stored where the next step fetches it. -/
def State.withFetchWord (s : State) (nbits w : Nat) : State := s.placeWord (tableWord nbits w)

end Sys2Proof.Machine
end

