-- ==== Sys2Proof/Machine/Echo.lean ====
section
/-!
DEFINITION. What echo mode recognises: the pseudo-instructions of R111, the register names of R32
and R37, and which instruction a step renders (R105 to R107). The text itself is out of scope (R5).
-/

namespace Sys2Proof.Machine

/-- The pseudo-instructions of R111 with their operands. -/
inductive Pseudo where
  | nop
  | li (rd : Reg) (imm : BitVec 12)
  | mv (rd rs : Reg)
  | ret
  | j (off : BitVec 21)
  | fmvS (rd rs : Reg)
  | fnegS (rd rs : Reg)
  | fabsS (rd rs : Reg)
  deriving DecidableEq, Repr

/-- The pseudo-instruction an instruction is an instance of, the patterns tried in R111's order. -/
def pseudoOf : Instr → Option Pseudo
  | .addi rd rs1 imm =>
    if rd = 0 ∧ rs1 = 0 ∧ imm = 0 then some .nop
    else if rs1 = 0 then some (.li rd imm)
    else if imm = 0 then some (.mv rd rs1)
    else none
  | .jalr rd rs1 imm => if isRet rd rs1 imm then some .ret else none
  | .jal rd off => if rd = 0 then some (.j off) else none
  | .fsgnjS rd rs1 rs2 => if rs1 = rs2 then some (.fmvS rd rs1) else none
  | .fsgnjnS rd rs1 rs2 => if rs1 = rs2 then some (.fnegS rd rs1) else none
  | .fsgnjxS rd rs1 rs2 => if rs1 = rs2 then some (.fabsS rd rs1) else none
  | _ => none

/-- The instruction a pseudo-instruction stands for (R111). -/
def Pseudo.expand : Pseudo → Instr
  | .nop => .addi 0 0 0
  | .li rd imm => .addi rd 0 imm
  | .mv rd rs => .addi rd rs 0
  | .ret => .jalr 0 1 0
  | .j off => .jal 0 off
  | .fmvS rd rs => .fsgnjS rd rs rs
  | .fnegS rd rs => .fsgnjnS rd rs rs
  | .fabsS rd rs => .fsgnjxS rd rs rs

/-- What a step renders: an instruction, a pseudo-instruction, or a word that selects none. -/
inductive EchoItem where
  | plain (i : Instr)
  | pseudo (p : Pseudo)
  | unrecognised (w : Word)
  deriving DecidableEq, Repr

/-- What a word is rendered as, pseudo-instructions only in alternate-mnemonics mode (R111). -/
def State.echoOf (s : State) (w : Word) : EchoItem :=
  match decode s.params w with
  | none => .unrecognised w
  | some i =>
    match if s.echoCfg.altMnemonics then pseudoOf i else none with
    | some p => .pseudo p
    | none => .plain i

/-- What the next step renders: nothing without `echo_en`, on the fault path (R105, R272), or where
the step is refused before the rendering. DESIGN CHOICE (log entry 28): R50 names a silent mode and
gives it no effect, so the item rendered is the same whatever `echoCfg.silent` holds. -/
def State.echo (s : State) : Option EchoItem :=
  if s.fault || !s.echoEn then none
  else match s.fetch with
    | .error _ => none
    | .ok w =>
      if is32 w then
        match s.clearStatus.runWord w with
        | .next _ => some (s.echoOf w)
        | _ => none
      else none

/-- The ABI names of the integer registers (R32). DESIGN CHOICE (log entry 29): R32 gives register 8
two names, `s0` and `fp`, and does not say which the renderer uses; here it is `s0`. -/
def xNames : List String :=
  ["zero", "ra", "sp", "gp", "tp", "t0", "t1", "t2", "s0", "s1", "a0", "a1", "a2", "a3", "a4", "a5",
   "a6", "a7", "s2", "s3", "s4", "s5", "s6", "s7", "s8", "s9", "s10", "s11", "t3", "t4", "t5", "t6"]

/-- The ABI names of the float cells (R37). -/
def fNames : List String :=
  ["ft0", "ft1", "ft2", "ft3", "ft4", "ft5", "ft6", "ft7", "fs0", "fs1", "fa0", "fa1", "fa2", "fa3",
   "fa4", "fa5", "fa6", "fa7", "fs2", "fs3", "fs4", "fs5", "fs6", "fs7", "fs8", "fs9", "fs10", "fs11",
   "ft8", "ft9", "ft10", "ft11"]

/-- The name of an integer register: ABI or numeric, as configured (R107). DESIGN CHOICE (log entry
29): the spec does not say which names "alternate register names" (R50) selects; here the ABI ones. -/
def State.xName (s : State) (r : Reg) : String :=
  if s.echoCfg.altRegNames then xNames.getD r.val "" else "x" ++ toString r.val

/-- The name of a float cell: ABI or numeric, as configured (R107), the setting read as by
`State.xName` (DESIGN CHOICE, log entry 29). -/
def State.fName (s : State) (r : Reg) : String :=
  if s.echoCfg.altRegNames then fNames.getD r.val "" else "f" ++ toString r.val

end Sys2Proof.Machine
end

