-- ==== Sys2Proof/Machine/HostOps.lean ====
section
/-!
DEFINITION. The host interface: what the embedding program does to the machine between steps (R12,
R70 to R73, R300 to R305). None of these is a step. Reads and writes of `x[i]` by index are
`State.readX` and `State.pokeX`, of `f[i]` in either view `State.readFS`, `State.writeFS`,
`State.readFD` and `State.writeFD` (Machine/Ops.lean).
-/

namespace Sys2Proof.Machine

/-! ### Register accessors by ABI name (R12, R32) -/

/-- The typed accessors the source gives: the registers an ABI name reaches. -/
def typedAccessors : List (String × Reg) :=
  [("zero", 0), ("ra", 1), ("sp", 2), ("gp", 3), ("t0", 5), ("t1", 6), ("t2", 7), ("a0", 10),
   ("a1", 11), ("a2", 12), ("a3", 13), ("a4", 14), ("a5", 15), ("a6", 16), ("a7", 17), ("t3", 28),
   ("t4", 29), ("t5", 30), ("t6", 31)]

/-- The register of a typed accessor. -/
def accessorReg (name : String) : Option Reg := (typedAccessors.find? (·.1 == name)).map (·.2)

/-- Read a register by ABI name. -/
def State.readNamed (s : State) (name : String) : Option Word := (accessorReg name).map s.readX

/-- Write a register by ABI name; `zero` is written like any other (R31(b)). -/
def State.writeNamed (s : State) (name : String) (v : Word) : Option State :=
  (accessorReg name).map fun r => s.pokeX r v

/-! ### The program counter, the inputs of a step, hooks, the echo configuration -/

/-- The host sets `pc`; no alignment is checked (R40), and the sticky flag stays (R279). -/
def State.setPc (s : State) (t : Word) : State := { s with pc := t }

/-- The host asks for a step with these flags (R11). -/
def State.request (s : State) (execEn echoEn : Bool) : State :=
  { s with execEn := execEn, echoEn := echoEn }

/-- The host registers or removes a hook (R48). -/
def State.setHook (s : State) (k : HookKind) (present : Bool) : State :=
  match k with
  | .ecall => { s with hooks := { s.hooks with ecall := present } }
  | .ebreak => { s with hooks := { s.hooks with ebreak := present } }
  | .atomic => { s with hooks := { s.hooks with atomic := present } }
  | .bitmanip => { s with hooks := { s.hooks with bitmanip := present } }

/-- The host configures the echo subsystem (R50). -/
def State.setEcho (s : State) (c : EchoConfig) : State := { s with echoCfg := c }

/-! ### The memory map (R70 to R73) -/

/-- A buffer of the host: `len` bytes of its memory from an index upward. -/
structure HostBuffer where
  start : Nat
  len   : Nat
  deriving DecidableEq, Repr

/-- SLOT_MAX (R7). -/
def slotMax : Nat := 0x10000

/-- The least index of an inactive slot. -/
def State.freeSlot (s : State) : Option (Fin 16) :=
  (List.finRange 16).find? fun k => !(s.slots[k]).active

/-- `map(buf, size)` (R70): the new state and the address returned, 0 on failure (R72). `none` is a
host call that breaks its precondition, a buffer shorter than `size`. -/
def State.map (s : State) (buf : HostBuffer) (size : Nat) : Option (State × Word) :=
  if size > slotMax then some (s, 0)
  else match s.freeSlot with
    | none => some (s, 0)
    | some k =>
      if buf.len < size then none
      else
        let base := slotBase s.params.mapTag k
        some ({ s with slots := s.slots.set k ⟨true, buf.start, size, base⟩ }, base)

/-- `unmap(address)` (R71): the new state, and `false` for the reported error on an address without
the tag. The low 20 bits of the address are not checked. -/
def State.unmap (s : State) (a : Word) : State × Bool :=
  if addrTag a = s.params.mapTag then
    ({ s with slots := s.slots.set (addrSlot a) { s.slotAt a with active := false } }, true)
  else (s, false)

/-- The host writes bytes of its own memory between steps (R73). -/
def State.writeHost (s : State) (start : Nat) (bs : List Byte) : State :=
  { s with hostMem := s.hostMem.writeBytes start bs }

/-! ### Symbols (R305) -/

/-- `find(name)`: the least index whose name is equal byte for byte; `none` where there is none. -/
def State.findFunc (s : State) (name : List Byte) : Option Nat :=
  s.image.funcs.findIdx? (·.name == name)

/-- `address(i)`. -/
def State.funcAddress (s : State) (i : Nat) : Option Word := (s.image.funcs[i]?).map (·.address)

/-- `insn_count(i)`: the byte size over 4. -/
def State.insnCount (s : State) (i : Nat) : Option Nat := (s.image.funcs[i]?).map (·.size / 4)

/-- `set_pc(i)`; refused (`none`) for an index out of range. -/
def State.setPcToIndex (s : State) (i : Nat) : Option State := (s.funcAddress i).map s.setPc

/-- `set_pc(name)`; refused (`none`) for a missing name. -/
def State.setPcToName (s : State) (name : List Byte) : Option State :=
  (s.findFunc name).bind s.setPcToIndex

/-! ### Initialisation, boot and teardown (R300 to R304) -/

/-- Re-initialisation (R302): machine initialisation again, with the image as it now stands; slots
and hooks are gone, the host's memory is the host's. -/
def State.reinitialise (s : State) : State := State.initialise s.params s.image s.hostMem

/-- Teardown (R303): what outlives the machine, the image and the host's memory. -/
def State.teardown (s : State) : Image × Memory := (s.image, s.hostMem)

/-- The index of `a7`, the last argument register (R304 step 7). -/
def lastArg : Nat := 17

/-- Arguments in the argument registers `a0` to `a7`, from the `i`-th upward (R304 step 7). DESIGN
CHOICE (log entry 30): the spec names eight argument registers and says nothing of a ninth argument;
arguments beyond the eighth are dropped. -/
def State.setArgs : State → Nat → List Word → State
  | s, _, [] => s
  | s, i, v :: vs =>
    State.setArgs (if h : 10 + i ≤ lastArg then s.pokeX ⟨10 + i, Nat.lt_of_le_of_lt h (by decide)⟩ v else s)
      (i + 1) vs

/-- The boot duties of R304 for a function entered at an address: `sp` at the top of the stack
buffer, `gp` from the image, `ra` at the sentinel, the arguments (the first eight, log entry 30),
`pc`, and a request to execute. -/
def State.boot (s : State) (args : List Word) (entry : Word) (echo : Bool) : State :=
  (((((s.pokeX 2 s.image.codeOrigin).pokeX 3 s.image.gp).pokeX 1 s.params.nativePc).setArgs 0
    args).setPc entry).request true echo

end Sys2Proof.Machine
end

