-- ==== Sys2Proof/Safety.lean ====
section
/-!
DEFINITION. The words claims are made in: the invariant of the state (R51, R64), terminal status
(R42), what a step never changes, and what a run that is not refused is.
-/

namespace Sys2Proof.Machine

/-- The address window of MAP_TAG starts here (R64). -/
def State.tagLow (s : State) : Nat := s.params.mapTag.toNat * 2 ^ 24

/-- Constraints on the regions (R51, R64): the code origin is above 4, the tag is not 0, and the
tag window is disjoint from the stack region and from the code region. -/
def State.regionsOk (s : State) : Bool :=
  decide (4 < s.image.codeOrigin.toNat) &&
  s.params.mapTag != 0 &&
  (decide (s.image.codeOrigin.toNat ≤ s.tagLow) || decide (s.tagLow + 2 ^ 24 ≤ 5)) &&
  (decide (s.image.codeOrigin.toNat + s.image.size ≤ s.tagLow) ||
    decide (s.tagLow + 2 ^ 24 ≤ s.image.codeOrigin.toNat))

/-- An active slot is at most 0x10000 bytes long and stands at its own base (R47). -/
def State.slotsOk (s : State) : Bool :=
  (List.finRange 16).all fun k =>
    let sl := s.slots[k]
    !sl.active || (decide (sl.size ≤ 0x10000) && sl.base == slotBase s.params.mapTag k)

/-- Each byte store is in canonical form, and lists no byte beyond the buffer it stands for. -/
def State.storesOk (s : State) : Bool :=
  s.stack.wf && s.image.code.wf && s.hostMem.wf &&
  s.stack.all (fun c => c.1 < s.image.codeOrigin.toNat) &&
  s.image.code.all (fun c => c.1 < s.image.size)

/-- While the sticky flag is set the status is exactly NATIVE (R271, R272). -/
def State.faultOk (s : State) : Bool := !s.fault || s.status == StatusBit.mask .native

/-- The invariant of the machine. -/
abbrev State.Inv (s : State) : Prop :=
  s.regionsOk = true ∧ s.slotsOk = true ∧ s.storesOk = true ∧ s.faultOk = true

/-- Status is terminal: the host stops stepping (R42). -/
def State.terminal (s : State) : Bool := s.hasStatus .native

/-- The state that no instruction, hook or fault changes: the sizes and origins of the image and its
symbols, the slot table, the hooks, the inputs of a step, the echo configuration and the parameters
(R46 to R48, R195). -/
structure State.SameFrame (s t : State) : Prop where
  image    : t.image = { s.image with code := t.image.code }
  slots    : t.slots = s.slots
  hooks    : t.hooks = s.hooks
  execEn   : t.execEn = s.execEn
  echoEn   : t.echoEn = s.echoEn
  echoCfg  : t.echoCfg = s.echoCfg
  params   : t.params = s.params

/-- Every byte of storage is unchanged. -/
def State.SameBytes (s t : State) : Prop := ∀ p : Place, t.readPlace p = s.readPlace p

/-- Every byte of storage is unchanged but `n` bytes from a place upward. -/
def State.SameBytesBut (s t : State) (q : Place) (n : Nat) : Prop :=
  ∀ p : Place, ¬(p.bank = q.bank ∧ q.index ≤ p.index ∧ p.index < q.index + n) →
    t.readPlace p = s.readPlace p

/-- Every integer register but one is unchanged. -/
def State.SameXBut (s t : State) (rd : Reg) : Prop := ∀ r : Reg, r ≠ rd → t.readX r = s.readX r

/-- Every float cell but one is unchanged, whole. -/
def State.SameFBut (s t : State) (rd : Reg) : Prop := ∀ r : Reg, r ≠ rd → t.readFD r = s.readFD r

/-- The hook an instruction calls, if it is one that calls a hook (R197 to R202). -/
def hookOf : Instr → Option HookKind
  | .ecall => some .ecall
  | .ebreak => some .ebreak
  | .atomicGroup _ _ _ _ _ => some .atomic
  | .bitmanipGroup _ => some .bitmanip
  | _ => none

/-- Is an instruction a conditional branch. -/
def isBranch : Instr → Bool
  | .beq _ _ _ | .bne _ _ _ | .blt _ _ _ | .bge _ _ _ | .bltu _ _ _ | .bgeu _ _ _ => true
  | _ => false

/-- Where an instruction transfers control to, if it does in this state: a branch whose condition
holds, JAL, JALR (R182 to R189, R191). -/
def State.transferOf (s : State) : Instr → Option Word
  | .beq rs1 rs2 off => if s.readX rs1 = s.readX rs2 then some (s.pc + off.signExtend 32) else none
  | .bne rs1 rs2 off => if s.readX rs1 ≠ s.readX rs2 then some (s.pc + off.signExtend 32) else none
  | .blt rs1 rs2 off =>
    if (s.readX rs1).toInt < (s.readX rs2).toInt then some (s.pc + off.signExtend 32) else none
  | .bge rs1 rs2 off =>
    if (s.readX rs1).toInt ≥ (s.readX rs2).toInt then some (s.pc + off.signExtend 32) else none
  | .bltu rs1 rs2 off =>
    if (s.readX rs1).toNat < (s.readX rs2).toNat then some (s.pc + off.signExtend 32) else none
  | .bgeu rs1 rs2 off =>
    if (s.readX rs1).toNat ≥ (s.readX rs2).toNat then some (s.pc + off.signExtend 32) else none
  | .jal _ off => some (s.pc + off.signExtend 32)
  | .jalr _ rs1 imm => some (s.readX rs1 + imm.signExtend 32)
  | _ => none

/-- The `funct7`, `rs2`, `funct3` combinations of OP-FP that R206 and R243 to R262 give a meaning. -/
def opFpAccepted (f7 : BitVec 7) (rs2 : BitVec 5) (f3 : BitVec 3) : Bool :=
  (f7 ∈ [0b0000000, 0b0000100, 0b0001000, 0b0001100, 0b0000001, 0b0000101, 0b0001001, 0b0001101]) ||
  (f7 ∈ [0b0101100, 0b0101101, 0b0100001] && rs2 == 0) ||
  (f7 == 0b0100000 && rs2 == 1) ||
  (f7 ∈ [0b0010000, 0b0010001, 0b1010000, 0b1010001] && f3 ∈ [0b000, 0b001, 0b010]) ||
  (f7 ∈ [0b0010100, 0b0010101] && f3 ∈ [0b000, 0b001]) ||
  (f7 ∈ [0b1100000, 0b1100001, 0b1101000, 0b1101001] && rs2 ∈ [0, 1]) ||
  (f7 ∈ [0b1110000, 0b1111000] && rs2 == 0 && f3 == 0b000) ||
  (f7 == 0b1110001 && rs2 == 0 && f3 == 0b001)

/-- What every completed instruction that transfers no control does beside its own effect: `pc + 4`,
the counter plus one, status and the sticky flag as they were (R190, R44). -/
structure State.Advanced (s t : State) : Prop where
  pc      : t.pc = s.pc + 4
  counter : t.counter = s.counter + 1
  status  : t.status = s.status
  fault   : t.fault = s.fault
  frame   : s.SameFrame t

/-- `if rd != 0: x[rd] <- v` and nothing else but the advance: register 0 keeps its value, every
other register, every float cell and every byte of storage is unchanged (R31). -/
structure State.WroteX (s t : State) (rd : Reg) (v : Word) : Prop where
  advanced : s.Advanced t
  value    : t.readX rd = if rd = 0 then s.readX 0 else v
  others   : s.SameXBut t rd
  floats   : t.f = s.f
  bytes    : s.SameBytes t

/-- `fS[rd] <- v` and nothing else but the advance: bits 63..32 of the cell, every other cell, every
integer register and every byte of storage are unchanged (R35, R36). -/
structure State.WroteFS (s t : State) (rd : Reg) (v : Word) : Prop where
  advanced : s.Advanced t
  low      : t.readFS rd = v
  high     : (t.readFD rd).extractLsb' 32 32 = (s.readFD rd).extractLsb' 32 32
  others   : s.SameFBut t rd
  ints     : t.x = s.x
  bytes    : s.SameBytes t

/-- A float result is written: the pattern, or some NaN pattern where the IEEE result is a NaN
(NAN_RESULT, R205). -/
def State.WroteFloat (s t : State) (rd : Reg) (r : Option Word) : Prop :=
  ∃ v, (match r with | some w => v = w | none => isNaN v = true) ∧ s.WroteFS t rd v

/-- Bytes are stored from a place upward and nothing else happens but the advance. -/
structure State.StoredAt (s t : State) (q : Place) (bs : List Byte) : Prop where
  advanced : s.Advanced t
  stored   : ∀ i (h : i < bs.length), t.readPlace ⟨q.bank, q.index + i⟩ = bs[i]
  others   : s.SameBytesBut t q bs.length
  ints     : t.x = s.x
  floats   : t.f = s.f

/-- The pattern that the exact value `num / den`, in units of 2^-149, rounds to (R205): never a NaN;
an infinity exactly from half a unit in the last place above the largest finite magnitude; of the
sign of the value; if finite, no farther from the value than any finite pattern, subnormals
included, and even where a pattern of another value is as near. -/
structure NearestPattern (r : Word) (num : Int) (den : Nat) : Prop where
  notNaN  : isNaN r = false
  inf     : isInf r = true ↔ (2 ^ 25 - 1) * 2 ^ 253 * den ≤ 2 * num.natAbs
  sign    : num ≠ 0 → (f32Sign r = true ↔ num < 0)
  nearest : isInf r = false → ∀ c : Word, isNaN c = false → isInf c = false →
    (f32Val r * den - num).natAbs ≤ (f32Val c * den - num).natAbs
  even    : isInf r = false → ∀ c : Word, isNaN c = false → isInf c = false →
    f32Val c ≠ f32Val r → (f32Val r * den - num).natAbs = (f32Val c * den - num).natAbs →
    r.toNat % 2 = 0

/-- The integer that the value of a finite pattern rounds to in a direction (F2I_ROUND, R219; the
directions are those of log entry 9): `v` is the value in units of 2^-149, `one` of which make 1. -/
def RoundsToInteger (mode : Rounding) (v : Int) (n : Int) : Prop :=
  let one : Int := 2 ^ 149
  match mode with
  | .nearestEven => 2 * (n * one - v).natAbs ≤ 2 ^ 149 ∧ (2 * (n * one - v).natAbs = 2 ^ 149 → n % 2 = 0)
  | .towardZero => n.natAbs * 2 ^ 149 ≤ v.natAbs ∧ (n * one - v).natAbs < 2 ^ 149
  | .down => n * one ≤ v ∧ v < (n + 1) * one
  | .up => (n - 1) * one < v ∧ v ≤ n * one
  | .nearestAway => 2 * (n * one - v).natAbs ≤ 2 ^ 149 ∧
    (2 * (n * one - v).natAbs = 2 ^ 149 → v.natAbs < n.natAbs * 2 ^ 149)

/-- A run of `n` steps that no refusal ends. -/
def State.RunsFor (s : State) (n : Nat) : Prop := ∃ t, Host.Core.run Sys2Proof.core n s = .next t

end Sys2Proof.Machine
end

