-- ==== Sys2Proof/Certificates/Slice0/Obligations.lean ====
section
/-!
DEFINITION. The statements about the model: what its instructions, its step and its host operations
do, stated from the numbered rules of the spec. The titles and texts stand in OBLIGATIONS.json.
-/

section

open Sys2Proof Sys2Proof.Machine

/-- For every implementation, the example words of rules R132 to R263 chosen here, at least one for
each family of the opcode table but the bit-manipulation group, decode to the instruction and the
operands the rule gives. The spec marks as its own choice or inference: R206 (D12). (From R101,
R206, 40_integer.md, 41_muldiv.md, 42_loadstore.md, 43_control.md, 44_system_hooks.md,
45_float.md, 46_float_double.md.) -/
def Obligations.SampleWordsDecode : Prop :=
  ∀ p : Params,
  decode p 0xFFF30293 = some (.addi 5 6 (-1)) ∧
  decode p 0x123452B7 = some (.lui 5 0x12345) ∧
  decode p 0x407302B3 = some (.sub 5 6 7) ∧
  decode p 0x40435293 = some (.srai 5 6 4) ∧
  decode p 0x027322B3 = some (.mulhsu 5 6 7) ∧
  decode p 0xFFF34283 = some (.lbu 5 6 (-1)) ∧
  decode p 0xFE730FA3 = some (.sb 6 7 (-1)) ∧
  decode p 0xFE730CE3 = some (.beq 6 7 (-8)) ∧
  decode p 0xFF1FF0EF = some (.jal 1 (-16)) ∧
  decode p 0x00008067 = some (.jalr 0 1 0) ∧
  decode p 0x00100073 = some .ebreak ∧
  decode p 0x007322AF = some (.atomicGroup 5 6 7 2 0) ∧
  decode p 0x00132427 = some (.fsw 6 1 8) ∧
  decode p 0x0020F1D3 = some (.faddS 3 1 2 7) ∧
  decode p 0xC01092D3 = some (.fcvtWuS 5 1 1) ∧
  decode p 0x1820F24F = some (.fnmaddS 4 1 2 3 7) ∧
  decode p 0x0220F1D3 = some (.faddD 3 1 2 7) ∧
  decode p 0x1A20F243 = some (.fmaddD 4 1 2 3 7)

/-- For every word, each immediate given by the shift form of R93 to R97 equals the sign-extended
reassembled field, lies in the range the rule gives, is even for SB and UJ, and is the immediate
the decoded operands stand for; imm_U shifted left by 12 is the word with its low 12 bits cleared.
(Rules R93, R94, R95, R96, R97.) -/
def Obligations.ImmediatesOfAWord : Prop :=
  ∀ w : Word,
  (immI w = w.sshiftRight 20 ∧ immI w = (w.extractLsb' 20 12).signExtend 32 ∧
    -2048 ≤ (immI w).toInt ∧ (immI w).toInt ≤ 2047 ∧ sext12 (Field.immI12 w) = immI w) ∧
  (immS w = ((w.sshiftRight 25) <<< 5) ||| (w.extractLsb' 7 5).setWidth 32 ∧
    immS w = (w.extractLsb' 25 7 ++ w.extractLsb' 7 5).signExtend 32 ∧
    -2048 ≤ (immS w).toInt ∧ (immS w).toInt ≤ 2047 ∧ sext12 (Field.immS12 w) = immS w) ∧
  (let v : BitVec 13 := w.extractLsb' 31 1 ++ w.extractLsb' 7 1 ++ w.extractLsb' 25 6 ++ w.extractLsb' 8 4 ++ 0#1;
    immSB w = v.signExtend 32 ∧ immSB w = ((v.setWidth 32) <<< 19).sshiftRight 19 ∧
    -4096 ≤ (immSB w).toInt ∧ (immSB w).toInt ≤ 4094 ∧ (immSB w).toInt % 2 = 0 ∧
    (Field.immSB13 w).signExtend 32 = immSB w) ∧
  (immU w = (w.extractLsb' 12 20).setWidth 32 ∧ immU w <<< 12 = w &&& 0xFFFFF000 ∧
    upper20 (Field.immU20 w) = immU w <<< 12) ∧
  (let v : BitVec 21 := w.extractLsb' 31 1 ++ w.extractLsb' 12 8 ++ w.extractLsb' 20 1 ++ w.extractLsb' 21 10 ++ 0#1;
    immUJ w = v.signExtend 32 ∧ immUJ w = ((v.setWidth 32) <<< 11).sshiftRight 11 ∧
    -1048576 ≤ (immUJ w).toInt ∧ (immUJ w).toInt ≤ 1048574 ∧ (immUJ w).toInt % 2 = 0 ∧
    (Field.immUJ21 w).signExtend 32 = immUJ w)

/-- For every immediate, register and code value, the word of each of the shapes I, S, SB, U and UJ
holds each immediate bit where R99 places it, and decoding the word gives back the immediate with
its sign (an even offset for SB and UJ), and every register and code field. (Rules R99.) -/
def Obligations.ImmediatesRoundTrip : Prop :=
  ∀ (imm : BitVec 12) (imm20 : BitVec 20) (o13 : BitVec 13) (o21 : BitVec 21) (rs1 rs2 rd : Reg)
    (f3 : BitVec 3) (op : BitVec 7),
  (let w := encI imm rs1 f3 rd op;
    w.extractLsb' 20 12 = imm ∧ immI w = imm.signExtend 32 ∧ Field.rs1 w = rs1 ∧ Field.funct3 w = f3 ∧
    Field.rd w = rd ∧ Field.opcode w = op) ∧
  (let w := encS imm rs2 rs1 f3 op;
    w.extractLsb' 25 7 = imm.extractLsb' 5 7 ∧ w.extractLsb' 7 5 = imm.extractLsb' 0 5 ∧
    immS w = imm.signExtend 32 ∧ Field.rs2 w = rs2 ∧ Field.rs1 w = rs1 ∧ Field.funct3 w = f3 ∧
    Field.opcode w = op) ∧
  (let w := encSB o13 rs2 rs1 f3 op;
    w.extractLsb' 31 1 = o13.extractLsb' 12 1 ∧ w.extractLsb' 25 6 = o13.extractLsb' 5 6 ∧
    w.extractLsb' 8 4 = o13.extractLsb' 1 4 ∧ w.extractLsb' 7 1 = o13.extractLsb' 11 1 ∧
    (o13.toNat % 2 = 0 → immSB w = o13.signExtend 32) ∧ Field.rs2 w = rs2 ∧ Field.rs1 w = rs1 ∧
    Field.funct3 w = f3 ∧ Field.opcode w = op) ∧
  (let w := encU imm20 rd op;
    w.extractLsb' 12 20 = imm20 ∧ immU w = imm20.setWidth 32 ∧ Field.rd w = rd ∧ Field.opcode w = op) ∧
  (let w := encUJ o21 rd op;
    w.extractLsb' 31 1 = o21.extractLsb' 20 1 ∧ w.extractLsb' 21 10 = o21.extractLsb' 1 10 ∧
    w.extractLsb' 20 1 = o21.extractLsb' 11 1 ∧ w.extractLsb' 12 8 = o21.extractLsb' 12 8 ∧
    (o21.toNat % 2 = 0 → immUJ w = o21.signExtend 32) ∧ Field.rd w = rd ∧ Field.opcode w = op)

/-- The rows of the opcode table are pairwise disjoint; a row a word fits is the row the decoder
finds; and testing the rows in any other order finds the same row. The spec marks as its own
choice or inference: R102 (derived). (From R102.) -/
def Obligations.OpcodeTableUnambiguous : Prop :=
  opcodeRows.Pairwise (fun a b => ∀ w, ¬(a.sel.fits w = true ∧ b.sel.fits w = true)) ∧
  (∀ w, ∀ r ∈ opcodeRows, r.sel.fits w = true → rowOf w = some r) ∧
  ∀ rows : List Row, rows.Perm opcodeRows → ∀ w, rows.find? (·.sel.fits w) = rowOf w

/-- For every implementation and every instruction of the table, with every operand at every value the
encoding admits, decode of encode i is i; a bit-manipulation word is encodable where it matches no
row and BITMANIP_SELECT takes it. The spec marks as its own choice or inference: R206 (D12); R104
(D13). (From R92, R99, R101, R206, R104.) -/
def Obligations.DecodeOfEncode : Prop :=
  ∀ (p : Params) (i : Instr), i.encodable p = true → decode p (encode i) = some i

/-- Whenever a word decodes, the decoded instruction is well-formed and encodable, its word is that
word bit for bit (no bit is dropped), and the word passes the length check. The spec marks as its
own choice or inference: R206 (D12). (From R90, R92, R101, R206.) -/
def Obligations.EncodeOfDecode : Prop :=
  ∀ (p : Params) (w : Word) (i : Instr), decode p w = some i → encode i = w ∧ i.encodable p = true ∧ is32 w = true

/-- Every word R125 lists matches no row of the opcode table (an OP-FP word exactly when its
combination is not one of R206 and R243 to R262); a word that passes the length check decodes to
nothing exactly when no row and no BITMANIP_SELECT pattern takes it; and with exec_en = 1 a step
on such a word is refused with the name unrecognised. The spec marks as its own choice or
inference: R125 (D12). (From R125.) -/
def Obligations.UnrecognisedWords : Prop :=
  (∀ w : Word,
    (Field.opcode w ∈ [0x0B#7, 0x2B#7, 0x5B#7, 0x7B#7, 0x0F#7, 0x1B#7, 0x3B#7, 0x57#7, 0x6B#7, 0x77#7] ∨
      (Field.opcode w = 0x03#7 ∧ Field.funct3 w ∈ [0b011#3, 0b110#3, 0b111#3]) ∨
      (Field.opcode w = 0x23#7 ∧ Field.funct3 w ∉ [0b000#3, 0b001#3, 0b010#3]) ∨
      (Field.opcode w = 0x63#7 ∧ Field.funct3 w ∈ [0b010#3, 0b011#3]) ∨
      (Field.opcode w = 0x67#7 ∧ Field.funct3 w ≠ 0b000#3) ∨
      (Field.opcode w = 0x33#7 ∧ Field.funct7 w ∉ [0b0000000#7, 0b0100000#7, 0b0000001#7]) ∨
      (Field.opcode w = 0x33#7 ∧ Field.funct7 w = 0b0100000#7 ∧ Field.funct3 w ∉ [0b000#3, 0b101#3]) ∨
      (Field.opcode w = 0x13#7 ∧ Field.funct3 w = 0b001#3 ∧ Field.funct7 w ≠ 0b0000000#7) ∨
      (Field.opcode w = 0x13#7 ∧ Field.funct3 w = 0b101#3 ∧ Field.funct7 w ∉ [0b0000000#7, 0b0100000#7]) ∨
      (Field.opcode w = 0x73#7 ∧ w ≠ 0x00000073#32 ∧ w ≠ 0x00100073#32) ∨
      (Field.opcode w ∈ [0x07#7, 0x27#7] ∧ Field.funct3 w ∉ [0b010#3, 0b011#3]) ∨
      (Field.opcode w ∈ [0x43#7, 0x47#7, 0x4B#7, 0x4F#7] ∧ Field.fmt w ∈ [0b10#2, 0b11#2]) ∨
      (Field.opcode w = 0x53#7 ∧ Field.fmt w ∈ [0b10#2, 0b11#2]) ∨
      (Field.opcode w = 0x53#7 ∧ Field.funct7 w = 0b1110000#7 ∧ Field.funct3 w = 0b001#3)) →
    rowOf w = none) ∧
  (∀ w : Word, Field.opcode w = 0x53#7 →
    (rowOf w = none ↔ opFpAccepted (Field.funct7 w) (Field.rs2Bits w) (Field.funct3 w) = false)) ∧
  (∀ (p : Params) (w : Word), is32 w = true →
    (decode p w = none ↔ rowOf w = none ∧ p.selectsBitmanip w = false)) ∧
  ∀ (s : State) (w : Word), s.fault = false → s.fetch = .ok w → is32 w = true → s.execEn = true →
    rowOf w = none → s.params.selectsBitmanip w = false → step s = .refused .unrecognised

/-- For every state, a pc that is not a multiple of 4 gives MisalignedFetch; else a word not wholly
inside the code image gives FetchOutsideCode; else the fetched word is the four code bytes at pc,
the lowest address least significant. The spec marks as its own choice or inference: R75 (D5).
(From R75.) -/
def Obligations.FetchReadsCodeOnly : Prop :=
  ∀ s : State,
  let a := s.pc.toNat
  let origin := s.image.codeOrigin.toNat
  (a % 4 ≠ 0 → s.fetch = .error .misalignedFetch) ∧
  (a % 4 = 0 → (a < origin ∨ a - origin + 4 > s.image.size) → s.fetch = .error .fetchOutsideCode) ∧
  (a % 4 = 0 → origin ≤ a → a - origin + 4 ≤ s.image.size →
    s.fetch = .ok (s.image.code.read (a - origin + 3) ++ s.image.code.read (a - origin + 2) ++
      s.image.code.read (a - origin + 1) ++ s.image.code.read (a - origin)))

/-- A word is a 32-bit encoding exactly when w[1:0] = 11 and w[4:2] is not 111. From a state whose
fault flag is clear, a step ends with the flag set exactly when the fetch is misaligned, the fetch
is outside the code image or the word fails the length check; no handler faults, whatever exec_en
is; and the state after is the state before with the flag set and status {NATIVE}. The spec marks
as its own choice or inference: R271 (D36); R273 (D5, D36). (From R90, R271, R273.) -/
def Obligations.FaultsExactlyForTheThreeCauses : Prop :=
  (∀ w : Word, is32 w = true ↔ w.extractLsb' 0 2 = 0b11#2 ∧ w.extractLsb' 2 3 ≠ 0b111#3) ∧
  ∀ s : State, s.fault = false →
  ((∃ t, step s = .next t ∧ t.fault = true) ↔
    (s.fetch = .error .misalignedFetch ∨ s.fetch = .error .fetchOutsideCode ∨
      ∃ w, s.fetch = .ok w ∧ is32 w = false)) ∧
  ∀ t, step s = .next t → t.fault = true → t = { s with fault := true, status := 0b00001 }

/-- From every state with the fault flag set, for every exec_en and echo_en, any number of steps from
one up gives the same state with status {NATIVE}: no fetch, no decode, no register, pc or counter
change. (Rules R272.) -/
def Obligations.StickyFaultMakesEveryStepANoOp : Prop :=
  ∀ (s : State) (n : Nat), s.fault = true →
  Host.Core.run Sys2Proof.core (n + 1) s = .next { s with status := 0b00001 }

/-- In a state with the fault flag set, every step and every host operation (register writes by index
and by ABI name, float writes, pc writes by value, symbol index or symbol name, map, unmap, hooks,
buffer writes, echo configuration, the step request, the boot duties) leaves it set, and re-
initialisation clears it. (Placing a program word from outside, log entry 5, is no operation of
the spec.) The spec marks as its own choice or inference: R302 (D35); R305 (D39). (From R43, R279,
R302, R12, R305.) -/
def Obligations.FaultFlagClearedOnlyByInitialisation : Prop :=
  ∀ s : State, s.fault = true →
  (∀ t, step s = .next t → t.fault = true) ∧
  (∀ r v, (s.pokeX r v).fault = true) ∧ (∀ r v, (s.writeFD r v).fault = true) ∧
  (∀ r v, (s.writeFS r v).fault = true) ∧ (∀ a, (s.setPc a).fault = true) ∧
  (∀ n v t, s.writeNamed n v = some t → t.fault = true) ∧
  (∀ i t, s.setPcToIndex i = some t → t.fault = true) ∧
  (∀ n t, s.setPcToName n = some t → t.fault = true) ∧
  (∀ b n t a, s.map b n = some (t, a) → t.fault = true) ∧ (∀ a, (s.unmap a).1.fault = true) ∧
  (∀ k b, (s.setHook k b).fault = true) ∧ (∀ a bs, (s.writeHost a bs).fault = true) ∧
  (∀ c, (s.setEcho c).fault = true) ∧ (∀ x e, (s.request x e).fault = true) ∧
  (∀ args entry e, (s.boot args entry e).fault = true) ∧
  s.reinitialise.fault = false

/-- Where the fault flag is clear, exec_en is 1, the fetch at pc gives a word and the word decodes,
the step is the meaning of that instruction applied to the state with status cleared; pc still
holds the address of the word, and the meaning itself advances pc and the counter. The spec marks
as its own choice or inference: R105 (D29). (From R105, 30_encoding.md.) -/
def Obligations.StepRunsTheDecodedInstruction : Prop :=
  ∀ (s : State) (w : Word) (i : Instr), s.fault = false → s.execEn = true → s.fetch = .ok w →
  decode s.params w = some i → step s = exec i { s with status := 0 }

/-- With exec_en = 0 and a fetched word that passes the length check the step changes nothing but
status (0) and pc (+ 4), even for a control transfer or an unrecognised word; a word that fails
the check faults. From every state, whatever exec_en, the fault flag, the fetch and the word, a
step with another echo_en and another echo configuration does the same and keeps those two as they
were: the rendering is a side output. The spec marks as its own choice or inference: R106 (D29);
R105 (D29). (From R106, R105, R107, R50.) -/
def Obligations.EchoOnlyStepAdvancesPc : Prop :=
  (∀ (s : State) (w : Word), s.fault = false → s.execEn = false → s.fetch = .ok w →
    (is32 w = true → step s = .next { s with status := 0, pc := s.pc + 4 }) ∧
    (is32 w = false → step s = .next { s with status := 0b00001, fault := true })) ∧
  ∀ (s : State) (b : Bool) (c : EchoConfig),
    step { s with echoEn := b, echoCfg := c } = match step s with
      | .next t => .next { t with echoEn := b, echoCfg := c }
      | .fault q => .fault q
      | .refused q => .refused q

/-- Whenever a step answers a next state, the counter is one more (modulo 2^64) if exec_en was 1 and
the step did not end faulted, stubs, skipped accesses, absent hooks and transfers to NATIVE_PC
included; else it is unchanged. The spec marks as its own choice or inference: R44 (D30). (From
R44.) -/
def Obligations.CounterCountsExecutedSteps : Prop :=
  ∀ s t : State, step s = .next t →
  t.counter = s.counter + (if s.execEn = true ∧ t.fault = false then 1 else 0)

/-- An executed instruction leaves pc at its target if it is a taken branch (pc + imm_SB), JAL (pc +
imm_UJ) or JALR (x[rs1] + imm_I, no bit cleared: the spec's decision D11, followed under log entry
21), and at pc + 4 otherwise (a not-taken branch, a skipped access, a stub, a hook call); a step
that ends faulted leaves pc; a step with exec_en = 0 sets pc + 4. The spec marks as its own choice
or inference: R180 (D5, D11); R188 (D10); R189 (D9, D11). (From R190, R180, R182, R183, R184,
R185, R186, R187, R188, R189.) -/
def Obligations.PcAfterAStep : Prop :=
  (∀ (i : Instr) (s t : State), exec i s = .next t → t.pc = (s.transferOf i).getD (s.pc + 4)) ∧
  (∀ s t : State, step s = .next t → t.fault = true → t.pc = s.pc) ∧
  ∀ s t : State, step s = .next t → t.fault = false → s.execEn = false → t.pc = s.pc + 4

/-- After a step that executes an instruction from any status: NATIVE is set exactly for a transfer to
NATIVE_PC, JAL exactly for JAL, JALR exactly for JALR, RET exactly for the word 0x00008067,
BRANCH_TAKEN exactly for a branch whose condition held. The spec marks as its own choice or
inference: R41 (D9); R191 (D8). (From R41, R191, R192.) -/
def Obligations.StatusBitsAfterAStep : Prop :=
  ∀ (s t : State) (w : Word) (i : Instr), s.fault = false → s.execEn = true → s.fetch = .ok w →
  decode s.params w = some i → step s = .next t →
  (t.hasStatus .native = true ↔ s.transferOf i = some s.params.nativePc) ∧
  (t.hasStatus .jal = true ↔ ∃ rd off, i = .jal rd off) ∧
  (t.hasStatus .jalr = true ↔ ∃ rd rs1 imm, i = .jalr rd rs1 imm) ∧
  (t.hasStatus .ret = true ↔ w = 0x00008067#32) ∧
  (t.hasStatus .branchTaken = true ↔ isBranch i = true ∧ (s.transferOf i).isSome = true)

/-- Whatever x[0] holds, an instruction that answers a next state and calls no present hook leaves
x[0] at its prior value, and so does every run of steps with all hooks absent, whatever words it
executes. The spec marks as its own choice or inference: R31 (D41). (From R31, R131, 10_state.md.) -/
def Obligations.InstructionsNeverWriteX0 : Prop :=
  (∀ (i : Instr) (s t : State), exec i s = .next t →
    (∀ k, hookOf i = some k → s.hooks.present k = false) → t.readX 0 = s.readX 0) ∧
  ∀ (s t : State) (n : Nat), (∀ k, s.hooks.present k = false) →
    Host.Core.run Sys2Proof.core n s = .next t → t.readX 0 = s.readX 0

/-- Every executed instruction, present hooks included, and every step leaves the slot table, the
hooks, the image but for its code bytes, the inputs of the step, the echo configuration and the
parameters as they were; and no instruction sets the fault flag. The spec marks as its own choice
or inference: R47 (D6); R195 (D14); R273 (D5, D36). (From R47, R48, R195, R46, R273.) -/
def Obligations.ConfigurationIsTheHosts : Prop :=
  (∀ (i : Instr) (s t : State), exec i s = .next t → s.SameFrame t ∧ t.fault = s.fault) ∧
  ∀ s t : State, step s = .next t → s.SameFrame t

/-- For every state and address the resolver answers as R61 writes it: the stack view for 5 to
CODE_ORIGIN - 1; else for a tagged address of an active slot the slot view, or Unresolved at or
beyond its size with no fall-through; else from CODE_ORIGIN on the code view, or Unresolved beyond
the image; else Unresolved. (Rules R61.) -/
def Obligations.ResolverPriorityOrder : Prop :=
  ∀ (s : State) (a : Word),
  let n := a.toNat
  let origin := s.image.codeOrigin.toNat
  let k := addrSlot a
  let sl := s.slots[k]
  let hit := addrTag a = s.params.mapTag ∧ sl.active = true
  let off := (a - sl.base).toNat
  (4 < n ∧ n < origin → s.resolve a = some ⟨.stack, n, origin - n⟩) ∧
  (¬(4 < n ∧ n < origin) → hit → off < sl.size → s.resolve a = some ⟨.slot k, off, sl.size - off⟩) ∧
  (¬(4 < n ∧ n < origin) → hit → sl.size ≤ off → s.resolve a = none) ∧
  (¬(4 < n ∧ n < origin) → ¬hit → origin ≤ n → n - origin < s.image.size →
    s.resolve a = some ⟨.code, n - origin, s.image.size - (n - origin)⟩) ∧
  (¬(4 < n ∧ n < origin) → ¬hit → origin ≤ n → s.image.size ≤ n - origin → s.resolve a = none) ∧
  (¬(4 < n ∧ n < origin) → ¬hit → n < origin → s.resolve a = none)

/-- In every state with the invariant: addresses 0 to 4 never resolve; 5 to CODE_ORIGIN - 1 are the
stack buffer; the size_k bytes from the base of an active slot k are that slot; CODE_ORIGIN to
CODE_ORIGIN + IMAGE_SIZE - 1 are the code image; every other address is Unresolved, a tagged
address of an inactive slot and one at or beyond the size of its slot among them. The spec marks
as its own choice or inference: R63 (derived); R64 (D7); R65 (derived). (From R63, R64, R65, R72,
R83.) -/
def Obligations.RegionsOfTheAddressSpace : Prop :=
  ∀ s : State, s.Inv → ∀ a : Word,
  (a.toNat ≤ 4 → s.resolve a = none) ∧
  (5 ≤ a.toNat → a.toNat < s.image.codeOrigin.toNat →
    s.resolve a = some ⟨.stack, a.toNat, s.image.codeOrigin.toNat - a.toNat⟩) ∧
  (∀ (k : Fin 16) (j : Nat), (s.slots[k]).active = true → j < (s.slots[k]).size →
    a.toNat = (slotBase s.params.mapTag k).toNat + j →
    s.resolve a = some ⟨.slot k, j, (s.slots[k]).size - j⟩) ∧
  (s.image.codeOrigin.toNat ≤ a.toNat → a.toNat < s.image.codeOrigin.toNat + s.image.size →
    s.resolve a = some ⟨.code, a.toNat - s.image.codeOrigin.toNat,
      s.image.size - (a.toNat - s.image.codeOrigin.toNat)⟩) ∧
  (s.image.codeOrigin.toNat + s.image.size ≤ a.toNat →
    (∀ (k : Fin 16), (s.slots[k]).active = true → a.toNat < (slotBase s.params.mapTag k).toNat ∨
      (slotBase s.params.mapTag k).toNat + (s.slots[k]).size ≤ a.toNat) → s.resolve a = none) ∧
  (addrTag a = s.params.mapTag → (s.slots[addrSlot a]).active = false → s.resolve a = none) ∧
  (addrTag a = s.params.mapTag → (s.slots[addrSlot a]).active = true →
    (s.slots[addrSlot a]).size ≤ (a.extractLsb' 0 20).toNat → s.resolve a = none)

/-- For every state and address: an unresolved address gives Unresolved; a view shorter than the
access is refused; else a read of 1, 2 or 4 bytes gives the consecutive bytes of the region the
address resolved to, little-endian. The spec marks as its own choice or inference: R66 (D2). (From
R66.) -/
def Obligations.ReadsAssembleLittleEndian : Prop :=
  ∀ (s : State) (a : Word),
  (∀ n, s.resolve a = none → s.memRead a n = .unresolved) ∧
  (∀ n v, s.resolve a = some v → v.len < n → s.memRead a n = .overrun) ∧
  ∀ v, s.resolve a = some v →
    let b (i : Nat) : Byte := match v.region with
      | .stack => s.stack.read (v.off + i)
      | .slot k => s.hostMem.read ((s.slots[k]).buf + v.off + i)
      | .code => s.image.code.read (v.off + i)
    (1 ≤ v.len → s.memRead a 1 = .done (b 0)) ∧
    (2 ≤ v.len → s.memRead a 2 = .done (b 1 ++ b 0)) ∧
    (4 ≤ v.len → s.memRead a 4 = .done (b 3 ++ b 2 ++ b 1 ++ b 0))

/-- For every state, address, width and value: an unresolved address writes nothing, a view shorter
than the access is refused, else byte i of the value is stored at the place of the view plus i
(read back so where the store is in canonical form), and every other byte, register, flag and
counter is unchanged. The spec marks as its own choice or inference: R67 (D2). (From R67.) -/
def Obligations.WritesPlaceEachByte : Prop :=
  ∀ (s : State) (a : Word) (n : Nat) (v : BitVec (8 * n)),
  (s.resolve a = none → s.memWrite a n v = .unresolved) ∧
  (∀ r, s.resolve a = some r → r.len < n → s.memWrite a n v = .overrun) ∧
  ∀ r, s.resolve a = some r → n ≤ r.len → ∃ t, s.memWrite a n v = .done t ∧
    ((s.bank (s.viewPlace r).bank).wf = true → ∀ i < n,
      t.readPlace ⟨(s.viewPlace r).bank, (s.viewPlace r).index + i⟩ = v.extractLsb' (8 * i) 8) ∧
    s.SameBytesBut t (s.viewPlace r) n ∧ s.SameFrame t ∧ t.x = s.x ∧ t.f = s.f ∧ t.pc = s.pc ∧
    t.status = s.status ∧ t.fault = s.fault ∧ t.counter = s.counter

/-- In every state with canonical byte stores, a completed write of any width followed by a read at
the same address and width gives the value written, whatever the region or alignment, and the
stores stay canonical; in every state with the invariant, after a completed word write at a (whose
last byte does not pass the top of the address space), byte and halfword reads at a, a + 2 and a +
3 see the parts in little-endian order. The spec marks as its own choice or inference: R66 (D2);
R67 (D2); R68 (D2); R69 (D3); R76 (D34); R179 (derived). (From R66, R67, R68, R69, R76, R179.) -/
def Obligations.ReadAfterWrite : Prop :=
  (∀ (s t : State) (a : Word) (n : Nat) (v : BitVec (8 * n)), s.storesOk = true →
    s.memWrite a n v = .done t → t.memRead a n = .done v ∧ t.storesOk = true) ∧
  ∀ (s t : State) (a : Word) (v : Word), s.Inv → a.toNat + 4 ≤ 2 ^ 32 →
    s.memWrite a 4 v = .done t →
    t.memRead a 1 = .done (v.extractLsb' 0 8) ∧ t.memRead a 2 = .done (v.extractLsb' 0 16) ∧
    t.memRead (a + 2) 2 = .done (v.extractLsb' 16 16) ∧ t.memRead (a + 3) 1 = .done (v.extractLsb' 24 8)

/-- Where a SW at pc stores to pc + 4, aligned and resolving into the code image, the next state has
pc + 4 as its pc and its fetch gives the stored word: no fence or delay is needed. The spec marks
as its own choice or inference: R80 (D33, derived). (From R80.) -/
def Obligations.StoreIntoCodeIsFetchedNext : Prop :=
  ∀ (s t : State) (rs1 rs2 : Reg) (imm : BitVec 12), s.storesOk = true →
  s.readX rs1 + imm.signExtend 32 = s.pc + 4 → exec (.sw rs1 rs2 imm) s = .next t →
  (s.pc + 4).toNat % 4 = 0 → s.resolve (s.pc + 4) = some ⟨.code,
    (s.pc + 4).toNat - s.image.codeOrigin.toNat,
    s.image.size - ((s.pc + 4).toNat - s.image.codeOrigin.toNat)⟩ →
  t.pc = s.pc + 4 ∧ t.fetch = .ok (s.readX rs2)

/-- In every state LUI writes imm_U << 12 and AUIPC writes pc + (imm_U << 12) to x[rd] unless rd is 0,
with pc + 4 and the counter plus one; no other register, float cell, byte, status bit or flag
changes; the words are the U format. (Rules R132, R133.) -/
def Obligations.UpperImmediates : Prop :=
  ∀ (s : State) (rd : Reg) (imm : BitVec 20),
  encode (.lui rd imm) = imm ++ regBits rd ++ 0b0110111#7 ∧
  (∃ t, exec (.lui rd imm) s = .next t ∧ s.WroteX t rd (imm.setWidth 32 <<< 12)) ∧
  encode (.auipc rd imm) = imm ++ regBits rd ++ 0b0010111#7 ∧
  (∃ t, exec (.auipc rd imm) s = .next t ∧ s.WroteX t rd (s.pc + (imm.setWidth 32 <<< 12)))

/-- In every state each writes its result of x[rs1] and the sign-extended immediate to x[rd] unless rd
is 0 (signed and unsigned comparison give 1 or 0), and SLLI, SRLI and SRAI write x[rs1] shifted by
the 5-bit shamt, with pc + 4 and the counter plus one and nothing else changed; the words are the
I format with the codes of the rule; an OP-IMM shift word with another w[31:25] matches no row.
(Rules R134, R135, R136, R137, R138, R139, R140, R141, R142.) -/
def Obligations.OpImmediate : Prop :=
  (∀ (s : State) (rd rs1 : Reg) (imm : BitVec 12),
  encode (.addi rd rs1 imm) = imm ++ regBits rs1 ++ 0b000#3 ++ regBits rd ++ 0b0010011#7 ∧
  (∃ t, exec (.addi rd rs1 imm) s = .next t ∧ s.WroteX t rd (s.readX rs1 + imm.signExtend 32)) ∧
  encode (.slti rd rs1 imm) = imm ++ regBits rs1 ++ 0b010#3 ++ regBits rd ++ 0b0010011#7 ∧
  (∃ t, exec (.slti rd rs1 imm) s = .next t ∧ s.WroteX t rd (if (s.readX rs1).toInt < (imm.signExtend 32 : Word).toInt then 1 else 0)) ∧
  encode (.sltiu rd rs1 imm) = imm ++ regBits rs1 ++ 0b011#3 ++ regBits rd ++ 0b0010011#7 ∧
  (∃ t, exec (.sltiu rd rs1 imm) s = .next t ∧ s.WroteX t rd (if (s.readX rs1).toNat < (imm.signExtend 32 : Word).toNat then 1 else 0)) ∧
  encode (.xori rd rs1 imm) = imm ++ regBits rs1 ++ 0b100#3 ++ regBits rd ++ 0b0010011#7 ∧
  (∃ t, exec (.xori rd rs1 imm) s = .next t ∧ s.WroteX t rd (s.readX rs1 ^^^ imm.signExtend 32)) ∧
  encode (.ori rd rs1 imm) = imm ++ regBits rs1 ++ 0b110#3 ++ regBits rd ++ 0b0010011#7 ∧
  (∃ t, exec (.ori rd rs1 imm) s = .next t ∧ s.WroteX t rd (s.readX rs1 ||| imm.signExtend 32)) ∧
  encode (.andi rd rs1 imm) = imm ++ regBits rs1 ++ 0b111#3 ++ regBits rd ++ 0b0010011#7 ∧
  (∃ t, exec (.andi rd rs1 imm) s = .next t ∧ s.WroteX t rd (s.readX rs1 &&& imm.signExtend 32))) ∧
  (∀ (s : State) (rd rs1 : Reg) (shamt : BitVec 5),
  encode (.slli rd rs1 shamt) = 0b0000000#7 ++ shamt ++ regBits rs1 ++ 0b001#3 ++ regBits rd ++ 0b0010011#7 ∧
  (∃ t, exec (.slli rd rs1 shamt) s = .next t ∧ s.WroteX t rd (s.readX rs1 <<< shamt.toNat)) ∧
  encode (.srli rd rs1 shamt) = 0b0000000#7 ++ shamt ++ regBits rs1 ++ 0b101#3 ++ regBits rd ++ 0b0010011#7 ∧
  (∃ t, exec (.srli rd rs1 shamt) s = .next t ∧ s.WroteX t rd (s.readX rs1 >>> shamt.toNat)) ∧
  encode (.srai rd rs1 shamt) = 0b0100000#7 ++ shamt ++ regBits rs1 ++ 0b101#3 ++ regBits rd ++ 0b0010011#7 ∧
  (∃ t, exec (.srai rd rs1 shamt) s = .next t ∧ s.WroteX t rd ((s.readX rs1).sshiftRight shamt.toNat))) ∧
  ∀ w : Word, Field.opcode w = 0x13#7 →
    (Field.funct3 w = 0b001#3 ∧ Field.funct7 w ≠ 0b0000000#7 ∨
      Field.funct3 w = 0b101#3 ∧ Field.funct7 w ∉ [0b0000000#7, 0b0100000#7]) → rowOf w = none

/-- In every state ADD, SUB, SLL, SLT, SLTU, XOR, SRL, SRA, OR and AND write the result of x[rs1] and
x[rs2] (shift amounts are x[rs2][4:0]) to x[rd] unless rd is 0, both sources read first, advance
pc by 4 and the counter by one, and change nothing else; the words are the R format. (Rules R143,
R144, R145, R146, R147, R148, R149, R150, R151, R152.) -/
def Obligations.OpRegisterArithmetic : Prop :=
  ∀ (s : State) (rd rs1 rs2 : Reg),
  encode (.add rd rs1 rs2) = 0b0000000#7 ++ regBits rs2 ++ regBits rs1 ++ 0b000#3 ++ regBits rd ++ 0b0110011#7 ∧
  (∃ t, exec (.add rd rs1 rs2) s = .next t ∧ s.WroteX t rd (s.readX rs1 + s.readX rs2)) ∧
  encode (.sub rd rs1 rs2) = 0b0100000#7 ++ regBits rs2 ++ regBits rs1 ++ 0b000#3 ++ regBits rd ++ 0b0110011#7 ∧
  (∃ t, exec (.sub rd rs1 rs2) s = .next t ∧ s.WroteX t rd (s.readX rs1 - s.readX rs2)) ∧
  encode (.sll rd rs1 rs2) = 0b0000000#7 ++ regBits rs2 ++ regBits rs1 ++ 0b001#3 ++ regBits rd ++ 0b0110011#7 ∧
  (∃ t, exec (.sll rd rs1 rs2) s = .next t ∧ s.WroteX t rd (s.readX rs1 <<< ((s.readX rs2).extractLsb' 0 5).toNat)) ∧
  encode (.slt rd rs1 rs2) = 0b0000000#7 ++ regBits rs2 ++ regBits rs1 ++ 0b010#3 ++ regBits rd ++ 0b0110011#7 ∧
  (∃ t, exec (.slt rd rs1 rs2) s = .next t ∧ s.WroteX t rd (if (s.readX rs1).toInt < (s.readX rs2).toInt then 1 else 0)) ∧
  encode (.sltu rd rs1 rs2) = 0b0000000#7 ++ regBits rs2 ++ regBits rs1 ++ 0b011#3 ++ regBits rd ++ 0b0110011#7 ∧
  (∃ t, exec (.sltu rd rs1 rs2) s = .next t ∧ s.WroteX t rd (if (s.readX rs1).toNat < (s.readX rs2).toNat then 1 else 0)) ∧
  encode (.xor rd rs1 rs2) = 0b0000000#7 ++ regBits rs2 ++ regBits rs1 ++ 0b100#3 ++ regBits rd ++ 0b0110011#7 ∧
  (∃ t, exec (.xor rd rs1 rs2) s = .next t ∧ s.WroteX t rd (s.readX rs1 ^^^ s.readX rs2)) ∧
  encode (.srl rd rs1 rs2) = 0b0000000#7 ++ regBits rs2 ++ regBits rs1 ++ 0b101#3 ++ regBits rd ++ 0b0110011#7 ∧
  (∃ t, exec (.srl rd rs1 rs2) s = .next t ∧ s.WroteX t rd (s.readX rs1 >>> ((s.readX rs2).extractLsb' 0 5).toNat)) ∧
  encode (.sra rd rs1 rs2) = 0b0100000#7 ++ regBits rs2 ++ regBits rs1 ++ 0b101#3 ++ regBits rd ++ 0b0110011#7 ∧
  (∃ t, exec (.sra rd rs1 rs2) s = .next t ∧ s.WroteX t rd ((s.readX rs1).sshiftRight ((s.readX rs2).extractLsb' 0 5).toNat)) ∧
  encode (.or rd rs1 rs2) = 0b0000000#7 ++ regBits rs2 ++ regBits rs1 ++ 0b110#3 ++ regBits rd ++ 0b0110011#7 ∧
  (∃ t, exec (.or rd rs1 rs2) s = .next t ∧ s.WroteX t rd (s.readX rs1 ||| s.readX rs2)) ∧
  encode (.and rd rs1 rs2) = 0b0000000#7 ++ regBits rs2 ++ regBits rs1 ++ 0b111#3 ++ regBits rd ++ 0b0110011#7 ∧
  (∃ t, exec (.and rd rs1 rs2) s = .next t ∧ s.WroteX t rd (s.readX rs1 &&& s.readX rs2))

/-- In every state each writes its word of the exact product (signed by signed, signed by unsigned,
unsigned by unsigned), or its quotient or remainder (0 for a zero divisor, signed and unsigned;
INT32_MIN and 0 for INT32_MIN / -1; else truncated toward zero), to x[rd] unless rd is 0, with the
advance and nothing else; the words are the R format with funct7 0000001. The spec marks as its
own choice or inference: R166 (D28); R168 (D28). (From R161, R162, R163, R164, R165, R166, R167,
R168.) -/
def Obligations.MultiplyAndDivide : Prop :=
  ∀ (s : State) (rd rs1 rs2 : Reg),
  encode (.mul rd rs1 rs2) = 0b0000001#7 ++ regBits rs2 ++ regBits rs1 ++ 0b000#3 ++ regBits rd ++ 0b0110011#7 ∧
  (∃ t, exec (.mul rd rs1 rs2) s = .next t ∧ s.WroteX t rd (BitVec.ofInt 32 ((s.readX rs1).toInt * (s.readX rs2).toInt))) ∧
  encode (.mulh rd rs1 rs2) = 0b0000001#7 ++ regBits rs2 ++ regBits rs1 ++ 0b001#3 ++ regBits rd ++ 0b0110011#7 ∧
  (∃ t, exec (.mulh rd rs1 rs2) s = .next t ∧ s.WroteX t rd ((BitVec.ofInt 64 ((s.readX rs1).toInt * (s.readX rs2).toInt)).extractLsb' 32 32)) ∧
  encode (.mulhsu rd rs1 rs2) = 0b0000001#7 ++ regBits rs2 ++ regBits rs1 ++ 0b010#3 ++ regBits rd ++ 0b0110011#7 ∧
  (∃ t, exec (.mulhsu rd rs1 rs2) s = .next t ∧ s.WroteX t rd ((BitVec.ofInt 64 ((s.readX rs1).toInt * ((s.readX rs2).toNat : Int))).extractLsb' 32 32)) ∧
  encode (.mulhu rd rs1 rs2) = 0b0000001#7 ++ regBits rs2 ++ regBits rs1 ++ 0b011#3 ++ regBits rd ++ 0b0110011#7 ∧
  (∃ t, exec (.mulhu rd rs1 rs2) s = .next t ∧ s.WroteX t rd ((BitVec.ofNat 64 ((s.readX rs1).toNat * (s.readX rs2).toNat)).extractLsb' 32 32)) ∧
  encode (.div rd rs1 rs2) = 0b0000001#7 ++ regBits rs2 ++ regBits rs1 ++ 0b100#3 ++ regBits rd ++ 0b0110011#7 ∧
  (∃ t, exec (.div rd rs1 rs2) s = .next t ∧ s.WroteX t rd (BitVec.ofInt 32 (if (s.readX rs2).toInt = 0 then 0 else if (s.readX rs1).toInt = -2 ^ 31 ∧ (s.readX rs2).toInt = -1 then -2 ^ 31 else (s.readX rs1).toInt.tdiv (s.readX rs2).toInt))) ∧
  encode (.divu rd rs1 rs2) = 0b0000001#7 ++ regBits rs2 ++ regBits rs1 ++ 0b101#3 ++ regBits rd ++ 0b0110011#7 ∧
  (∃ t, exec (.divu rd rs1 rs2) s = .next t ∧ s.WroteX t rd (if (s.readX rs2).toNat = 0 then 0 else BitVec.ofNat 32 ((s.readX rs1).toNat / (s.readX rs2).toNat))) ∧
  encode (.rem rd rs1 rs2) = 0b0000001#7 ++ regBits rs2 ++ regBits rs1 ++ 0b110#3 ++ regBits rd ++ 0b0110011#7 ∧
  (∃ t, exec (.rem rd rs1 rs2) s = .next t ∧ s.WroteX t rd (BitVec.ofInt 32 (if (s.readX rs2).toInt = 0 then 0 else if (s.readX rs1).toInt = -2 ^ 31 ∧ (s.readX rs2).toInt = -1 then 0 else (s.readX rs1).toInt - (s.readX rs2).toInt * (s.readX rs1).toInt.tdiv (s.readX rs2).toInt))) ∧
  encode (.remu rd rs1 rs2) = 0b0000001#7 ++ regBits rs2 ++ regBits rs1 ++ 0b111#3 ++ regBits rd ++ 0b0110011#7 ∧
  (∃ t, exec (.remu rd rs1 rs2) s = .next t ∧ s.WroteX t rd (if (s.readX rs2).toNat = 0 then 0 else BitVec.ofNat 32 ((s.readX rs1).toNat % (s.readX rs2).toNat)))

/-- For all operands the high word of MULH, MULHSU or MULHU over the low word of MUL reads as the
exact product; with a non-zero divisor and no overflow the division law holds exactly over the
integers, the remainder is smaller in magnitude than the divisor and takes the sign of the
dividend; the unsigned forms likewise; all four give 0 for a zero divisor; INT32_MIN / -1 gives
INT32_MIN and remainder 0. The spec marks as its own choice or inference: R160 (D28); R169
(derived). (From R160, R169.) -/
def Obligations.MultiplicationAndDivisionLaws : Prop :=
  ∀ a b : Word,
  (highWord (a.toInt * b.toInt) ++ mulLow a b).toInt = a.toInt * b.toInt ∧
  (highWord (a.toInt * b.toNat) ++ mulLow a b).toInt = a.toInt * b.toNat ∧
  (highWord (a.toNat * b.toNat) ++ mulLow a b).toNat = a.toNat * b.toNat ∧
  (b ≠ 0 → ¬(a.toInt = -2 ^ 31 ∧ b.toInt = -1) →
    a.toInt = (divSigned a b).toInt * b.toInt + (remSigned a b).toInt ∧
    (remSigned a b).toInt.natAbs < b.toInt.natAbs ∧
    (0 ≤ a.toInt → 0 ≤ (remSigned a b).toInt) ∧ (a.toInt ≤ 0 → (remSigned a b).toInt ≤ 0)) ∧
  (b ≠ 0 → a.toNat = (divUnsigned a b).toNat * b.toNat + (remUnsigned a b).toNat ∧
    (remUnsigned a b).toNat < b.toNat) ∧
  (divSigned a 0 = 0 ∧ remSigned a 0 = 0 ∧ divUnsigned a 0 = 0 ∧ remUnsigned a 0 = 0) ∧
  divSigned 0x80000000 0xFFFFFFFF = 0x80000000 ∧ remSigned 0x80000000 0xFFFFFFFF = 0

/-- Where the read at x[rs1] + imm (modulo 2^32) gives a value, the load writes it, sign-extended (LB,
LH), zero-extended (LBU, LHU) or whole (LW), to x[rd] unless rd is 0; FLW writes bits 31..0 of
f[rd], 0 included, and keeps bits 63..32; with the advance and nothing else, every byte of memory
unchanged. The spec marks as its own choice or inference: R170 (D38). (From R170, R171, R172,
R173, R174, R175, R207.) -/
def Obligations.LoadResults : Prop :=
  ∀ (s : State) (rd rs1 : Reg) (imm : BitVec 12),
  encode (.lb rd rs1 imm) = imm ++ regBits rs1 ++ 0b000#3 ++ regBits rd ++ 0b0000011#7 ∧
  (∀ v, s.memRead (s.readX rs1 + imm.signExtend 32) 1 = .done v →
    ∃ t, exec (.lb rd rs1 imm) s = .next t ∧ s.WroteX t rd (v.signExtend 32)) ∧
  encode (.lh rd rs1 imm) = imm ++ regBits rs1 ++ 0b001#3 ++ regBits rd ++ 0b0000011#7 ∧
  (∀ v, s.memRead (s.readX rs1 + imm.signExtend 32) 2 = .done v →
    ∃ t, exec (.lh rd rs1 imm) s = .next t ∧ s.WroteX t rd (v.signExtend 32)) ∧
  encode (.lw rd rs1 imm) = imm ++ regBits rs1 ++ 0b010#3 ++ regBits rd ++ 0b0000011#7 ∧
  (∀ v, s.memRead (s.readX rs1 + imm.signExtend 32) 4 = .done v →
    ∃ t, exec (.lw rd rs1 imm) s = .next t ∧ s.WroteX t rd (v)) ∧
  encode (.lbu rd rs1 imm) = imm ++ regBits rs1 ++ 0b100#3 ++ regBits rd ++ 0b0000011#7 ∧
  (∀ v, s.memRead (s.readX rs1 + imm.signExtend 32) 1 = .done v →
    ∃ t, exec (.lbu rd rs1 imm) s = .next t ∧ s.WroteX t rd (v.setWidth 32)) ∧
  encode (.lhu rd rs1 imm) = imm ++ regBits rs1 ++ 0b101#3 ++ regBits rd ++ 0b0000011#7 ∧
  (∀ v, s.memRead (s.readX rs1 + imm.signExtend 32) 2 = .done v →
    ∃ t, exec (.lhu rd rs1 imm) s = .next t ∧ s.WroteX t rd (v.setWidth 32)) ∧
  encode (.flw rd rs1 imm) = imm ++ regBits rs1 ++ 0b010#3 ++ regBits rd ++ 0b0000111#7 ∧
  (∀ v, s.memRead (s.readX rs1 + imm.signExtend 32) 4 = .done v →
    ∃ t, exec (.flw rd rs1 imm) s = .next t ∧ s.WroteFS t rd v)

/-- In every state with canonical stores, where the access at x[rs1] + imm has a place q of storage,
the store completes: its bytes, least significant first, stand from q upward, every byte of
storage outside them is unchanged, no register, float cell, status bit or flag changes, pc goes up
by 4 and the counter by one. The spec marks as its own choice or inference: R170 (D38); R67 (D2).
(From R170, R176, R177, R178, R208, R67.) -/
def Obligations.StoreResults : Prop :=
  ∀ (s : State) (rs1 rs2 : Reg) (imm : BitVec 12), s.storesOk = true →
  encode (.sb rs1 rs2 imm) = imm.extractLsb' 5 7 ++ regBits rs2 ++ regBits rs1 ++ 0b000#3 ++ imm.extractLsb' 0 5 ++ 0b0100011#7 ∧
  (∀ q, s.accessPlace (s.readX rs1 + imm.signExtend 32) 1 = .done q →
    ∃ t, exec (.sb rs1 rs2 imm) s = .next t ∧ s.StoredAt t q (leBytes 1 ((s.readX rs2).extractLsb' 0 8))) ∧
  encode (.sh rs1 rs2 imm) = imm.extractLsb' 5 7 ++ regBits rs2 ++ regBits rs1 ++ 0b001#3 ++ imm.extractLsb' 0 5 ++ 0b0100011#7 ∧
  (∀ q, s.accessPlace (s.readX rs1 + imm.signExtend 32) 2 = .done q →
    ∃ t, exec (.sh rs1 rs2 imm) s = .next t ∧ s.StoredAt t q (leBytes 2 ((s.readX rs2).extractLsb' 0 16))) ∧
  encode (.sw rs1 rs2 imm) = imm.extractLsb' 5 7 ++ regBits rs2 ++ regBits rs1 ++ 0b010#3 ++ imm.extractLsb' 0 5 ++ 0b0100011#7 ∧
  (∀ q, s.accessPlace (s.readX rs1 + imm.signExtend 32) 4 = .done q →
    ∃ t, exec (.sw rs1 rs2 imm) s = .next t ∧ s.StoredAt t q (leBytes 4 (s.readX rs2))) ∧
  encode (.fsw rs1 rs2 imm) = imm.extractLsb' 5 7 ++ regBits rs2 ++ regBits rs1 ++ 0b010#3 ++ imm.extractLsb' 0 5 ++ 0b0100111#7 ∧
  (∀ q, s.accessPlace (s.readX rs1 + imm.signExtend 32) 4 = .done q →
    ∃ t, exec (.fsw rs1 rs2 imm) s = .next t ∧ s.StoredAt t q (leBytes 4 (s.readFS rs2)))

/-- Where x[rs1] + imm does not resolve, each of the five integer loads, the three integer stores, FLW
and FSW leaves every register, float cell, byte, status bit and the fault flag unchanged, advances
pc by 4 and the counter by one. (Rules R82.) -/
def Obligations.UnresolvedAccessIsSkipped : Prop :=
  ∀ (s : State) (rd rs1 rs2 : Reg) (imm : BitVec 12),
  s.resolve (s.readX rs1 + imm.signExtend 32) = none →
  exec (.lb rd rs1 imm) s = .next { s with pc := s.pc + 4, counter := s.counter + 1 } ∧
  exec (.lh rd rs1 imm) s = .next { s with pc := s.pc + 4, counter := s.counter + 1 } ∧
  exec (.lw rd rs1 imm) s = .next { s with pc := s.pc + 4, counter := s.counter + 1 } ∧
  exec (.lbu rd rs1 imm) s = .next { s with pc := s.pc + 4, counter := s.counter + 1 } ∧
  exec (.lhu rd rs1 imm) s = .next { s with pc := s.pc + 4, counter := s.counter + 1 } ∧
  exec (.sb rs1 rs2 imm) s = .next { s with pc := s.pc + 4, counter := s.counter + 1 } ∧
  exec (.sh rs1 rs2 imm) s = .next { s with pc := s.pc + 4, counter := s.counter + 1 } ∧
  exec (.sw rs1 rs2 imm) s = .next { s with pc := s.pc + 4, counter := s.counter + 1 } ∧
  exec (.flw rd rs1 imm) s = .next { s with pc := s.pc + 4, counter := s.counter + 1 } ∧
  exec (.fsw rs1 rs2 imm) s = .next { s with pc := s.pc + 4, counter := s.counter + 1 }

/-- The resolver is applied to the first byte: where it resolves, a halfword or word access with fewer
bytes left than it needs is refused as accessOverrun, one with enough completes, and a byte access
always completes. The spec marks as its own choice or inference: R62 (D4). (From R62.) -/
def Obligations.OverrunIsRefused : Prop :=
  ∀ (s : State) (rd rs1 rs2 : Reg) (imm : BitVec 12) (v : View),
  s.resolve (s.readX rs1 + imm.signExtend 32) = some v →
  (v.len < 2 → exec (.lh rd rs1 imm) s = .refused .accessOverrun) ∧ (2 ≤ v.len → ∃ t, exec (.lh rd rs1 imm) s = .next t) ∧
  (v.len < 2 → exec (.lhu rd rs1 imm) s = .refused .accessOverrun) ∧ (2 ≤ v.len → ∃ t, exec (.lhu rd rs1 imm) s = .next t) ∧
  (v.len < 2 → exec (.sh rs1 rs2 imm) s = .refused .accessOverrun) ∧ (2 ≤ v.len → ∃ t, exec (.sh rs1 rs2 imm) s = .next t) ∧
  (v.len < 4 → exec (.lw rd rs1 imm) s = .refused .accessOverrun) ∧ (4 ≤ v.len → ∃ t, exec (.lw rd rs1 imm) s = .next t) ∧
  (v.len < 4 → exec (.sw rs1 rs2 imm) s = .refused .accessOverrun) ∧ (4 ≤ v.len → ∃ t, exec (.sw rs1 rs2 imm) s = .next t) ∧
  (v.len < 4 → exec (.flw rd rs1 imm) s = .refused .accessOverrun) ∧ (4 ≤ v.len → ∃ t, exec (.flw rd rs1 imm) s = .next t) ∧
  (v.len < 4 → exec (.fsw rs1 rs2 imm) s = .refused .accessOverrun) ∧ (4 ≤ v.len → ∃ t, exec (.fsw rs1 rs2 imm) s = .next t) ∧
  (∃ t, exec (.lb rd rs1 imm) s = .next t) ∧
  (∃ t, exec (.lbu rd rs1 imm) s = .next t) ∧
  (∃ t, exec (.sb rs1 rs2 imm) s = .next t)

/-- MODEL'S CHOICE, log entry 14: R241 and R242 refuse FLD and FSD and name two candidates; the model
executes the one its parameter selects. Candidate (a) changes only pc and the counter; candidate
(b) moves 64 bits between memory and the whole float cell, skips an unresolved address, and is
refused on an overrun of 8 bytes. The spec marks as its own choice or inference: R241 (D27); R242
(D27). (From R241, R242, 46_float_double.md.) -/
def Obligations.FldFsdFollowTheirParameter : Prop :=
  ∀ (s : State) (rd rs1 rs2 : Reg) (imm : BitVec 12),
  (s.params.fldFsd = .stub →
    exec (.fld rd rs1 imm) s = .next { s with pc := s.pc + 4, counter := s.counter + 1 } ∧
    exec (.fsd rs1 rs2 imm) s = .next { s with pc := s.pc + 4, counter := s.counter + 1 }) ∧
  (s.params.fldFsd = .move64 →
    (∀ v, s.memRead (s.readX rs1 + imm.signExtend 32) 8 = .done v → ∃ t, exec (.fld rd rs1 imm) s = .next t ∧
      s.Advanced t ∧ t.readFD rd = v ∧ s.SameFBut t rd ∧ t.x = s.x ∧ s.SameBytes t) ∧
    (∀ q, s.accessPlace (s.readX rs1 + imm.signExtend 32) 8 = .done q → s.storesOk = true →
      ∃ t, exec (.fsd rs1 rs2 imm) s = .next t ∧ s.StoredAt t q (leBytes 8 (s.readFD rs2))) ∧
    (s.resolve (s.readX rs1 + imm.signExtend 32) = none →
      exec (.fld rd rs1 imm) s = .next { s with pc := s.pc + 4, counter := s.counter + 1 } ∧
      exec (.fsd rs1 rs2 imm) s = .next { s with pc := s.pc + 4, counter := s.counter + 1 }) ∧
    (∀ v, s.resolve (s.readX rs1 + imm.signExtend 32) = some v → v.len < 8 →
      exec (.fld rd rs1 imm) s = .refused .accessOverrun ∧
      exec (.fsd rs1 rs2 imm) s = .refused .accessOverrun))

/-- In every state a branch whose condition on x[rs1] and x[rs2] holds sets BRANCH_TAKEN, goes to pc +
imm_SB and sets NATIVE as well if that is NATIVE_PC; one whose condition does not hold only
advances pc by 4; the counter goes up by one and nothing else changes; the words are the SB
format. (Rules R181, R182, R183, R184, R185, R186, R187.) -/
def Obligations.Branches : Prop :=
  ∀ (s : State) (rs1 rs2 : Reg) (off : BitVec 13),
  let target := s.pc + off.signExtend 32
  let native : Status := if target = s.params.nativePc then 0b00001 else 0
  let taken := { s with pc := target, counter := s.counter + 1, status := s.status ||| 0b10000 ||| native }
  encode (.beq rs1 rs2 off) = off.extractLsb' 12 1 ++ off.extractLsb' 5 6 ++ regBits rs2 ++ regBits rs1 ++ 0b000#3 ++ off.extractLsb' 1 4 ++ off.extractLsb' 11 1 ++ 0b1100011#7 ∧
  (s.readX rs1 = s.readX rs2 → exec (.beq rs1 rs2 off) s = .next taken) ∧
  (¬(s.readX rs1 = s.readX rs2) → exec (.beq rs1 rs2 off) s = .next { s with pc := s.pc + 4, counter := s.counter + 1 }) ∧
  encode (.bne rs1 rs2 off) = off.extractLsb' 12 1 ++ off.extractLsb' 5 6 ++ regBits rs2 ++ regBits rs1 ++ 0b001#3 ++ off.extractLsb' 1 4 ++ off.extractLsb' 11 1 ++ 0b1100011#7 ∧
  (s.readX rs1 ≠ s.readX rs2 → exec (.bne rs1 rs2 off) s = .next taken) ∧
  (¬(s.readX rs1 ≠ s.readX rs2) → exec (.bne rs1 rs2 off) s = .next { s with pc := s.pc + 4, counter := s.counter + 1 }) ∧
  encode (.blt rs1 rs2 off) = off.extractLsb' 12 1 ++ off.extractLsb' 5 6 ++ regBits rs2 ++ regBits rs1 ++ 0b100#3 ++ off.extractLsb' 1 4 ++ off.extractLsb' 11 1 ++ 0b1100011#7 ∧
  ((s.readX rs1).toInt < (s.readX rs2).toInt → exec (.blt rs1 rs2 off) s = .next taken) ∧
  (¬((s.readX rs1).toInt < (s.readX rs2).toInt) → exec (.blt rs1 rs2 off) s = .next { s with pc := s.pc + 4, counter := s.counter + 1 }) ∧
  encode (.bge rs1 rs2 off) = off.extractLsb' 12 1 ++ off.extractLsb' 5 6 ++ regBits rs2 ++ regBits rs1 ++ 0b101#3 ++ off.extractLsb' 1 4 ++ off.extractLsb' 11 1 ++ 0b1100011#7 ∧
  ((s.readX rs1).toInt ≥ (s.readX rs2).toInt → exec (.bge rs1 rs2 off) s = .next taken) ∧
  (¬((s.readX rs1).toInt ≥ (s.readX rs2).toInt) → exec (.bge rs1 rs2 off) s = .next { s with pc := s.pc + 4, counter := s.counter + 1 }) ∧
  encode (.bltu rs1 rs2 off) = off.extractLsb' 12 1 ++ off.extractLsb' 5 6 ++ regBits rs2 ++ regBits rs1 ++ 0b110#3 ++ off.extractLsb' 1 4 ++ off.extractLsb' 11 1 ++ 0b1100011#7 ∧
  ((s.readX rs1).toNat < (s.readX rs2).toNat → exec (.bltu rs1 rs2 off) s = .next taken) ∧
  (¬((s.readX rs1).toNat < (s.readX rs2).toNat) → exec (.bltu rs1 rs2 off) s = .next { s with pc := s.pc + 4, counter := s.counter + 1 }) ∧
  encode (.bgeu rs1 rs2 off) = off.extractLsb' 12 1 ++ off.extractLsb' 5 6 ++ regBits rs2 ++ regBits rs1 ++ 0b111#3 ++ off.extractLsb' 1 4 ++ off.extractLsb' 11 1 ++ 0b1100011#7 ∧
  ((s.readX rs1).toNat ≥ (s.readX rs2).toNat → exec (.bgeu rs1 rs2 off) s = .next taken) ∧
  (¬((s.readX rs1).toNat ≥ (s.readX rs2).toNat) → exec (.bgeu rs1 rs2 off) s = .next { s with pc := s.pc + 4, counter := s.counter + 1 })

/-- In every state JAL writes pc + 4 to x[rd] unless rd is 0, whatever the target; sets status JAL,
and NATIVE if the target is NATIVE_PC; leaves pc at pc + imm_UJ; the counter goes up by one and
nothing else changes; the word is the UJ format. The spec marks as its own choice or inference:
R188 (D10). (From R188.) -/
def Obligations.JumpAndLink : Prop :=
  ∀ (s : State) (rd : Reg) (off : BitVec 21),
  let target := s.pc + off.signExtend 32
  encode (.jal rd off) = off.extractLsb' 20 1 ++ off.extractLsb' 1 10 ++ off.extractLsb' 11 1 ++ off.extractLsb' 12 8 ++ regBits rd ++ 0b1101111#7 ∧
  ∃ t, exec (.jal rd off) s = .next t ∧ t.pc = target ∧ t.counter = s.counter + 1 ∧
    t.status = s.status ||| 0b00010 ||| (if target = s.params.nativePc then 0b00001 else 0) ∧
    t.readX rd = (if rd = 0 then s.readX 0 else s.pc + 4) ∧ s.SameXBut t rd ∧ t.f = s.f ∧
    s.SameBytes t ∧ t.fault = s.fault ∧ s.SameFrame t

/-- In every state JALR takes the target x[rs1] + imm from the registers before the link, also when rd
= rs1; writes pc + 4 to x[rd] unless rd is 0; sets JALR, RET exactly when its word is 0x00008067,
NATIVE when the target is NATIVE_PC; leaves pc at the target with bit 0 kept; nothing else
changes; the word is the I format. The spec marks as its own choice or inference: R189 (D9, D11).
(From R189.) -/
def Obligations.JumpRegister : Prop :=
  ∀ (s : State) (rd rs1 : Reg) (imm : BitVec 12),
  let target := s.readX rs1 + imm.signExtend 32
  let ret : Status := if encode (.jalr rd rs1 imm) = 0x00008067#32 then 0b01000 else 0
  encode (.jalr rd rs1 imm) = imm ++ regBits rs1 ++ 0b000#3 ++ regBits rd ++ 0b1100111#7 ∧
  ∃ t, exec (.jalr rd rs1 imm) s = .next t ∧ t.pc = target ∧ t.counter = s.counter + 1 ∧
    t.status = s.status ||| 0b00100 ||| ret ||| (if target = s.params.nativePc then 0b00001 else 0) ∧
    t.readX rd = (if rd = 0 then s.readX 0 else s.pc + 4) ∧ s.SameXBut t rd ∧ t.f = s.f ∧
    s.SameBytes t ∧ t.fault = s.fault ∧ s.SameFrame t

/-- Where its hook is not registered, the instruction changes nothing but pc (+ 4) and the counter (+
1): no register (rd keeps its value), no memory, no status bit, no fault. ECALL is the word
0x00000073 and EBREAK 0x00100073 (decision D15); the atomic group is opcode 0x2F with the R format
fields (D16); these encodings and the group choices are followed under log entry 21. The spec
marks as its own choice or inference: R197 (D15); R198 (D15); R199 (D16); R201 (D13). (From R196,
R197, R198, R199, R201.) -/
def Obligations.AbsentHookIsANoOp : Prop :=
  ∀ (s : State) (rd rs1 rs2 : Reg) (funct3 : BitVec 3) (funct7 : BitVec 7) (w : Word),
  encode .ecall = 0x00000073 ∧
  (s.hooks.ecall = false → exec .ecall s = .next { s with pc := s.pc + 4, counter := s.counter + 1 }) ∧
  encode .ebreak = 0x00100073 ∧
  (s.hooks.ebreak = false → exec .ebreak s = .next { s with pc := s.pc + 4, counter := s.counter + 1 }) ∧
  encode (.atomicGroup rd rs1 rs2 funct3 funct7) = funct7 ++ regBits rs2 ++ regBits rs1 ++ funct3 ++ regBits rd ++ 0b0101111#7 ∧
  (s.hooks.atomic = false →
    exec (.atomicGroup rd rs1 rs2 funct3 funct7) s = .next { s with pc := s.pc + 4, counter := s.counter + 1 }) ∧
  (s.hooks.bitmanip = false → exec (.bitmanipGroup w) s = .next { s with pc := s.pc + 4, counter := s.counter + 1 })

/-- For each of the four hook instructions with its hook registered, whatever the hook does (a free
value): the step completes with pc + 4 and the counter plus one; status, the fault flag, the slot
table, the hooks, the image layout and the parameters are unchanged; and every byte of storage
that no guest address resolves to is unchanged. The spec marks as its own choice or inference:
R195 (D14); R197 (D15); R198 (D15); R199 (D16); R201 (D13). (From R195, R197, R198, R199, R201.) -/
def Obligations.PresentHookStaysInItsBounds : Prop :=
  ∀ (i : Instr) (k : HookKind) (s : State), hookOf i = some k → s.hooks.present k = true →
  ∃ t, exec i s = .next t ∧ s.Advanced t ∧
    ∀ p : Place, (∀ (a : Word) (v : View), s.resolve a = some v → s.viewPlace v ≠ p) →
      t.readPlace p = s.readPlace p

/-- In every state and for every rm each writes its binary32 result, or some NaN pattern where the
result is a NaN, to bits 31..0 of f[rd], cell 0 included; FDIV.S by +0 or -0 writes a zero of
either sign for every dividend; bits 63..32, every other cell, every integer register and byte are
unchanged, with the advance; the words are the R format. The spec marks as its own choice or
inference: R205 (D19, D20, D21, D22, D23, D24, D25); R212 (D23). (From R205, R209, R210, R211,
R212, R213.) -/
def Obligations.FloatArithmetic : Prop :=
  ∀ (s : State) (rd rs1 rs2 : Reg) (rm : BitVec 3),
  encode (.faddS rd rs1 rs2 rm) = 0b0000000#7 ++ regBits rs2 ++ regBits rs1 ++ rm ++ regBits rd ++ 0b1010011#7 ∧
  (∃ t, exec (.faddS rd rs1 rs2 rm) s = .next t ∧ s.WroteFloat t rd (f32Add (s.readFS rs1) (s.readFS rs2))) ∧
  encode (.fsubS rd rs1 rs2 rm) = 0b0000100#7 ++ regBits rs2 ++ regBits rs1 ++ rm ++ regBits rd ++ 0b1010011#7 ∧
  (∃ t, exec (.fsubS rd rs1 rs2 rm) s = .next t ∧ s.WroteFloat t rd (f32Sub (s.readFS rs1) (s.readFS rs2))) ∧
  encode (.fmulS rd rs1 rs2 rm) = 0b0001000#7 ++ regBits rs2 ++ regBits rs1 ++ rm ++ regBits rd ++ 0b1010011#7 ∧
  (∃ t, exec (.fmulS rd rs1 rs2 rm) s = .next t ∧ s.WroteFloat t rd (f32Mul (s.readFS rs1) (s.readFS rs2))) ∧
  encode (.fdivS rd rs1 rs2 rm) = 0b0001100#7 ++ regBits rs2 ++ regBits rs1 ++ rm ++ regBits rd ++ 0b1010011#7 ∧
  ((s.readFS rs2).extractLsb' 0 31 ≠ 0 → ∃ t, exec (.fdivS rd rs1 rs2 rm) s = .next t ∧ s.WroteFloat t rd (f32Div (s.readFS rs1) (s.readFS rs2))) ∧
  ((s.readFS rs2).extractLsb' 0 31 = 0 → ∃ t z, exec (.fdivS rd rs1 rs2 rm) s = .next t ∧ (z = 0x00000000#32 ∨ z = 0x80000000#32) ∧ s.WroteFS t rd z) ∧
  encode (.fsqrtS rd rs1 rm) = 0b0101100#7 ++ 0b00000#5 ++ regBits rs1 ++ rm ++ regBits rd ++ 0b1010011#7 ∧
  (∃ t, exec (.fsqrtS rd rs1 rm) s = .next t ∧ s.WroteFloat t rd (f32Sqrt (s.readFS rs1)))

/-- In every state and for every rm, FMADD.S, FMSUB.S, FNMSUB.S and FNMADD.S write a*b + c, a*b - c,
-(a*b) + c and -(a*b) - c, the signs applied by flipping bit 31 of a or c, rounded once or twice
as FMA_FUSED says, or some NaN pattern, to bits 31..0 of f[rd], and change nothing else but pc and
the counter; the words are the R4 format. The spec marks as its own choice or inference: R228
(D24). (From R228, R229, R230, R231, R232.) -/
def Obligations.FusedMultiplyAdd : Prop :=
  ∀ (s : State) (rd rs1 rs2 rs3 : Reg) (rm : BitVec 3),
  encode (.fmaddS rd rs1 rs2 rs3 rm) = regBits rs3 ++ 0b00#2 ++ regBits rs2 ++ regBits rs1 ++ rm ++ regBits rd ++ 0b1000011#7 ∧
  (∃ t, exec (.fmaddS rd rs1 rs2 rs3 rm) s = .next t ∧ s.WroteFloat t rd (match s.params.fmaFused with
    | .one => f32Fma (s.readFS rs1) (s.readFS rs2) (s.readFS rs3)
    | .two => (f32Mul (s.readFS rs1) (s.readFS rs2)).bind fun q => f32Add q (s.readFS rs3))) ∧
  encode (.fmsubS rd rs1 rs2 rs3 rm) = regBits rs3 ++ 0b00#2 ++ regBits rs2 ++ regBits rs1 ++ rm ++ regBits rd ++ 0b1000111#7 ∧
  (∃ t, exec (.fmsubS rd rs1 rs2 rs3 rm) s = .next t ∧ s.WroteFloat t rd (match s.params.fmaFused with
    | .one => f32Fma (s.readFS rs1) (s.readFS rs2) (s.readFS rs3 ^^^ 0x80000000#32)
    | .two => (f32Mul (s.readFS rs1) (s.readFS rs2)).bind fun q => f32Add q (s.readFS rs3 ^^^ 0x80000000#32))) ∧
  encode (.fnmsubS rd rs1 rs2 rs3 rm) = regBits rs3 ++ 0b00#2 ++ regBits rs2 ++ regBits rs1 ++ rm ++ regBits rd ++ 0b1001011#7 ∧
  (∃ t, exec (.fnmsubS rd rs1 rs2 rs3 rm) s = .next t ∧ s.WroteFloat t rd (match s.params.fmaFused with
    | .one => f32Fma (s.readFS rs1 ^^^ 0x80000000#32) (s.readFS rs2) (s.readFS rs3)
    | .two => (f32Mul (s.readFS rs1 ^^^ 0x80000000#32) (s.readFS rs2)).bind fun q => f32Add q (s.readFS rs3))) ∧
  encode (.fnmaddS rd rs1 rs2 rs3 rm) = regBits rs3 ++ 0b00#2 ++ regBits rs2 ++ regBits rs1 ++ rm ++ regBits rd ++ 0b1001111#7 ∧
  (∃ t, exec (.fnmaddS rd rs1 rs2 rs3 rm) s = .next t ∧ s.WroteFloat t rd (match s.params.fmaFused with
    | .one => f32Fma (s.readFS rs1 ^^^ 0x80000000#32) (s.readFS rs2) (s.readFS rs3 ^^^ 0x80000000#32)
    | .two => (f32Mul (s.readFS rs1 ^^^ 0x80000000#32) (s.readFS rs2)).bind fun q => f32Add q (s.readFS rs3 ^^^ 0x80000000#32)))

/-- In every state each writes the sign bit of rs2, its complement, or the exclusive or of both signs,
over bits 30..0 of rs1 (a NaN payload passes unchanged), and FMIN.S (FMAX.S), where neither
operand is a NaN and they are not both zeros, the operand of smaller (larger) value, else the
pattern FMINMAX_SPECIAL gives for the operation and both operands, a free value, to bits 31..0 of
f[rd], and changes nothing else but pc and the counter; the words are the R format. The spec marks
as its own choice or inference: R217 (D22); R218 (D22). (From R214, R215, R216, R217, R218.) -/
def Obligations.SignInjectionAndMinMax : Prop :=
  ∀ (s : State) (rd rs1 rs2 : Reg),
  encode (.fsgnjS rd rs1 rs2) = 0b0010000#7 ++ regBits rs2 ++ regBits rs1 ++ 0b000#3 ++ regBits rd ++ 0b1010011#7 ∧
  (∃ t, exec (.fsgnjS rd rs1 rs2) s = .next t ∧ s.WroteFS t rd ((s.readFS rs2).extractLsb' 31 1 ++ (s.readFS rs1).extractLsb' 0 31)) ∧
  encode (.fsgnjnS rd rs1 rs2) = 0b0010000#7 ++ regBits rs2 ++ regBits rs1 ++ 0b001#3 ++ regBits rd ++ 0b1010011#7 ∧
  (∃ t, exec (.fsgnjnS rd rs1 rs2) s = .next t ∧ s.WroteFS t rd ((~~~((s.readFS rs2).extractLsb' 31 1)) ++ (s.readFS rs1).extractLsb' 0 31)) ∧
  encode (.fsgnjxS rd rs1 rs2) = 0b0010000#7 ++ regBits rs2 ++ regBits rs1 ++ 0b010#3 ++ regBits rd ++ 0b1010011#7 ∧
  (∃ t, exec (.fsgnjxS rd rs1 rs2) s = .next t ∧ s.WroteFS t rd (((s.readFS rs1).extractLsb' 31 1 ^^^ (s.readFS rs2).extractLsb' 31 1) ++ (s.readFS rs1).extractLsb' 0 31)) ∧
  encode (.fminS rd rs1 rs2) = 0b0010100#7 ++ regBits rs2 ++ regBits rs1 ++ 0b000#3 ++ regBits rd ++ 0b1010011#7 ∧
  ((isNaN (s.readFS rs1) = true ∨ isNaN (s.readFS rs2) = true ∨ ((s.readFS rs1).extractLsb' 0 31 = 0 ∧ (s.readFS rs2).extractLsb' 0 31 = 0)) → ∃ t, exec (.fminS rd rs1 rs2) s = .next t ∧ s.WroteFS t rd (Config.fminmaxSpecial .min (s.readFS rs1) (s.readFS rs2))) ∧
  (¬(isNaN (s.readFS rs1) = true ∨ isNaN (s.readFS rs2) = true ∨ ((s.readFS rs1).extractLsb' 0 31 = 0 ∧ (s.readFS rs2).extractLsb' 0 31 = 0)) → ∃ t, exec (.fminS rd rs1 rs2) s = .next t ∧
    s.WroteFS t rd (if f32Val (s.readFS rs1) ≤ f32Val (s.readFS rs2) then s.readFS rs1 else s.readFS rs2)) ∧
  encode (.fmaxS rd rs1 rs2) = 0b0010100#7 ++ regBits rs2 ++ regBits rs1 ++ 0b001#3 ++ regBits rd ++ 0b1010011#7 ∧
  ((isNaN (s.readFS rs1) = true ∨ isNaN (s.readFS rs2) = true ∨ ((s.readFS rs1).extractLsb' 0 31 = 0 ∧ (s.readFS rs2).extractLsb' 0 31 = 0)) → ∃ t, exec (.fmaxS rd rs1 rs2) s = .next t ∧ s.WroteFS t rd (Config.fminmaxSpecial .max (s.readFS rs1) (s.readFS rs2))) ∧
  (¬(isNaN (s.readFS rs1) = true ∨ isNaN (s.readFS rs2) = true ∨ ((s.readFS rs1).extractLsb' 0 31 = 0 ∧ (s.readFS rs2).extractLsb' 0 31 = 0)) → ∃ t, exec (.fmaxS rd rs1 rs2) s = .next t ∧
    s.WroteFS t rd (if f32Val (s.readFS rs1) ≥ f32Val (s.readFS rs2) then s.readFS rs1 else s.readFS rs2))

/-- For each of the five directions the integer a finite pattern rounds to is, fractions included, the
nearest (a tie to the even one, or away from zero), the nearest toward zero, the floor or the
ceiling of its value; an infinity lies outside both ranges. For every integer from -2^31 to 2^32 -
1, so for every signed and every unsigned word, the pattern converted to is the one nearest to the
integer, even in a tie, of its sign, and finite; 0 converts to +0. (That F2I_ROUND picks one of
five directions is the model's reading, log entry 9.) In every state FCVT.W.S and FCVT.WU.S round
the operand in the direction F2I_ROUND gives for rm and write the integer to x[rd] unless rd is 0,
or F2I_INVALID of the signedness and the operand, a free value, for a NaN or an integer out of
range; FCVT.S.W and FCVT.S.WU write the signed or unsigned x[rs1] rounded to nearest even, for
every rm, and FMV.W.X the raw x[rs1], to bits 31..0 of f[rd], keeping bits 63..32; FMV.X.W writes
bits 31..0 of f[rs1] to x[rd] unless rd is 0; nothing else changes but pc and the counter; the
words are the R format. The spec marks as its own choice or inference: R219 (D20); R220 (D20);
R225 (D19); R226 (D19). (From R219, R220, R221, R225, R226, R227.) -/
def Obligations.ConversionsAndMoves : Prop :=
  (∀ (mode : Rounding) (a : Word), isNaN a = false →
    (isInf a = false → RoundsToInteger mode (f32Val a) (f32ToInt mode a)) ∧
    (isInf a = true → if f32Sign a = true then f32ToInt mode a < -2 ^ 31 else f32ToInt mode a > 2 ^ 32 - 1)) ∧
  (∀ n : Int, -2 ^ 31 ≤ n → n ≤ 2 ^ 32 - 1 → NearestPattern (f32FromInt n) (n * 2 ^ 149) 1) ∧
  f32FromInt 0 = 0 ∧
  ∀ (s : State) (rd rs1 : Reg) (rm : BitVec 3),
  let r := f32ToInt (s.params.f2iRound[rm.toNat]'(rm.isLt)) (s.readFS rs1)
  encode (.fcvtWS rd rs1 rm) = 0b1100000#7 ++ 0b00000#5 ++ regBits rs1 ++ rm ++ regBits rd ++ 0b1010011#7 ∧
  (isNaN (s.readFS rs1) = true ∨ r < -2 ^ 31 ∨ r > 2 ^ 31 - 1 →
    ∃ t, exec (.fcvtWS rd rs1 rm) s = .next t ∧ s.WroteX t rd (Config.f2iInvalid true (s.readFS rs1))) ∧
  (¬(isNaN (s.readFS rs1) = true ∨ r < -2 ^ 31 ∨ r > 2 ^ 31 - 1) →
    ∃ t, exec (.fcvtWS rd rs1 rm) s = .next t ∧ s.WroteX t rd (BitVec.ofInt 32 r)) ∧
  encode (.fcvtWuS rd rs1 rm) = 0b1100000#7 ++ 0b00001#5 ++ regBits rs1 ++ rm ++ regBits rd ++ 0b1010011#7 ∧
  (isNaN (s.readFS rs1) = true ∨ r < 0 ∨ r > 2 ^ 32 - 1 →
    ∃ t, exec (.fcvtWuS rd rs1 rm) s = .next t ∧ s.WroteX t rd (Config.f2iInvalid false (s.readFS rs1))) ∧
  (¬(isNaN (s.readFS rs1) = true ∨ r < 0 ∨ r > 2 ^ 32 - 1) →
    ∃ t, exec (.fcvtWuS rd rs1 rm) s = .next t ∧ s.WroteX t rd (BitVec.ofInt 32 r)) ∧
  encode (.fcvtSW rd rs1 rm) = 0b1101000#7 ++ 0b00000#5 ++ regBits rs1 ++ rm ++ regBits rd ++ 0b1010011#7 ∧
  (∃ t, exec (.fcvtSW rd rs1 rm) s = .next t ∧ s.WroteFS t rd (f32FromInt (s.readX rs1).toInt)) ∧
  encode (.fcvtSWu rd rs1 rm) = 0b1101000#7 ++ 0b00001#5 ++ regBits rs1 ++ rm ++ regBits rd ++ 0b1010011#7 ∧
  (∃ t, exec (.fcvtSWu rd rs1 rm) s = .next t ∧ s.WroteFS t rd (f32FromInt ((s.readX rs1).toNat : Int))) ∧
  encode (.fmvXW rd rs1) = 0b1110000#7 ++ 0b00000#5 ++ regBits rs1 ++ 0b000#3 ++ regBits rd ++ 0b1010011#7 ∧
  (∃ t, exec (.fmvXW rd rs1) s = .next t ∧ s.WroteX t rd (s.readFS rs1)) ∧
  encode (.fmvWX rd rs1) = 0b1111000#7 ++ 0b00000#5 ++ regBits rs1 ++ 0b000#3 ++ regBits rd ++ 0b1010011#7 ∧
  (∃ t, exec (.fmvWX rd rs1) s = .next t ∧ s.WroteFS t rd (s.readX rs1))

/-- In every state each writes 1 to x[rd] (unless rd is 0) if no operand is a NaN and the values
compare so, else 0, the values of the two zeros being equal; nothing else changes but pc and the
counter; the words are the R format. The spec marks as its own choice or inference: R222 (D25);
R223 (D25); R224 (D25). (From R222, R223, R224.) -/
def Obligations.FloatCompare : Prop :=
  ∀ (s : State) (rd rs1 rs2 : Reg),
  encode (.feqS rd rs1 rs2) = 0b1010000#7 ++ regBits rs2 ++ regBits rs1 ++ 0b010#3 ++ regBits rd ++ 0b1010011#7 ∧
  (∃ t, exec (.feqS rd rs1 rs2) s = .next t ∧ s.WroteX t rd (if isNaN (s.readFS rs1) = false ∧ isNaN (s.readFS rs2) = false ∧ f32Val (s.readFS rs1) = f32Val (s.readFS rs2) then 1 else 0)) ∧
  encode (.fltS rd rs1 rs2) = 0b1010000#7 ++ regBits rs2 ++ regBits rs1 ++ 0b001#3 ++ regBits rd ++ 0b1010011#7 ∧
  (∃ t, exec (.fltS rd rs1 rs2) s = .next t ∧ s.WroteX t rd (if isNaN (s.readFS rs1) = false ∧ isNaN (s.readFS rs2) = false ∧ f32Val (s.readFS rs1) < f32Val (s.readFS rs2) then 1 else 0)) ∧
  encode (.fleS rd rs1 rs2) = 0b1010000#7 ++ regBits rs2 ++ regBits rs1 ++ 0b000#3 ++ regBits rd ++ 0b1010011#7 ∧
  (∃ t, exec (.fleS rd rs1 rs2) s = .next t ∧ s.WroteX t rd (if isNaN (s.readFS rs1) = false ∧ isNaN (s.readFS rs2) = false ∧ f32Val (s.readFS rs1) ≤ f32Val (s.readFS rs2) then 1 else 0)) ∧
  f32Val 0x00000000 = f32Val 0x80000000

/-- For every exact ratio num/den of units 2^-149: below the overflow threshold the pattern chosen is
nearest among all finite patterns, subnormals included, and even in a tie; it is infinity exactly
from half a unit in the last place above the largest finite magnitude. The spec marks as its own
choice or inference: R205 (D19, D20, D21, D22, D23, D24, D25). (From R205.) -/
def Obligations.RoundingIsToNearestEven : Prop :=
  ∀ num den : Nat, 0 < den →
  let b := roundMag num den
  let mag (c : Nat) : Nat := f32Mag (BitVec.ofNat 32 c)
  let gap (c : Nat) : Nat := ((mag c * den : Int) - num).natAbs
  b ≤ 0x7F800000 ∧
  (b = 0x7F800000 ↔ (2 ^ 25 - 1) * 2 ^ 253 * den ≤ 2 * num) ∧
  (b < 0x7F800000 → ∀ c < 0x7F800000, gap b ≤ gap c ∧ (gap b = gap c → c ≠ b → b % 2 = 0))

/-- For finite operands f32_add and f32_sub give the pattern the exact sum or difference rounds to:
never a NaN, an infinity exactly from the overflow threshold, else the nearest finite pattern,
even in a tie, of the sign of the exact value; an exact zero is +0 unless both addends (the second
one negated, for a difference) are negative. For every positive finite operand of value v the root
r is finite and positive, and the exact root of v lies on the side of r of the midpoint between r
and every other finite pattern c (compared in squares: 4v against (r + c)^2). The spec marks as
its own choice or inference: R205 (D19, D20, D21, D22, D23, D24, D25). (From R205, R209, R210,
R213.) -/
def Obligations.SumAndRootAreNearest : Prop :=
  (∀ a b : Word, isNaN a = false → isNaN b = false → isInf a = false → isInf b = false →
    (∃ r, f32Add a b = some r ∧ NearestPattern r (f32Val a + f32Val b) 1 ∧
      (f32Val a + f32Val b = 0 → r = if f32Sign a = true ∧ f32Sign b = true then 0x80000000 else 0)) ∧
    ∃ r, f32Sub a b = some r ∧ NearestPattern r (f32Val a - f32Val b) 1 ∧
      (f32Val a - f32Val b = 0 → r = if f32Sign a = true ∧ f32Sign b = false then 0x80000000 else 0)) ∧
  ∀ a : Word, isNaN a = false → isInf a = false → isZero a = false → f32Sign a = false →
    ∃ r, f32Sqrt a = some r ∧ f32Sign r = false ∧ isNaN r = false ∧ isInf r = false ∧
      ∀ c : Word, f32Sign c = false → isNaN c = false → isInf c = false →
        (f32Mag r < f32Mag c → 4 * (f32Mag a * 2 ^ 149) ≤ (f32Mag r + f32Mag c) ^ 2) ∧
        (f32Mag c < f32Mag r → (f32Mag c + f32Mag r) ^ 2 ≤ 4 * (f32Mag a * 2 ^ 149))

/-- For all patterns: addition, multiplication and the product of a fused operation commute; a NaN
operand gives a NaN; inf - inf, 0 * inf and inf / inf give a NaN, as do a fused product of 0 and
inf and an infinite product plus the opposite infinity; any other infinite addend, factor,
dividend or product gives the infinity of its sign, a finite pattern over an infinity the zero of
its sign, a finite product plus an infinity that infinity; x - x is +0 for finite x; +0 + -0 is +0
and -0 + -0 is -0; the square root of -0 is -0, of +inf +inf, of any other negative number a NaN.
The spec marks as its own choice or inference: R205 (D19, D20, D21, D22, D23, D24, D25); R212
(D23); R228 (D24). (From R205, R209, R210, R211, R212, R213, R228.) -/
def Obligations.FloatSpecialCases : Prop :=
  ∀ a b c : Word,
  let opposite := f32Sign a != f32Sign b
  let inf : Word := if opposite then 0xFF800000 else 0x7F800000
  (f32Add a b = f32Add b a ∧ f32Mul a b = f32Mul b a ∧ f32Fma a b c = f32Fma b a c) ∧
  (isNaN a = true → f32Add a b = none ∧ f32Sub a b = none ∧ f32Sub b a = none ∧ f32Mul a b = none ∧
    f32Div a b = none ∧ f32Div b a = none ∧ f32Sqrt a = none ∧ f32Fma a b c = none ∧ f32Fma b c a = none) ∧
  (isInf a = true → isInf b = true → opposite → f32Add a b = none) ∧
  (isInf a = true → isInf b = true → ¬opposite → f32Sub a b = none) ∧
  (isInf a = true → isNaN b = false → (isInf b = true → ¬opposite) → f32Add a b = some a) ∧
  (isInf a = true → isZero b = true → f32Mul a b = none ∧ f32Fma a b c = none) ∧
  (isInf a = true → isNaN b = false → isZero b = false → f32Mul a b = some inf) ∧
  (isInf a = true → isInf b = true → f32Div a b = none) ∧
  (isInf a = true → isNaN b = false → isInf b = false → f32Div a b = some inf) ∧
  (isNaN a = false → isInf a = false → isInf b = true →
    f32Div a b = some (if opposite then 0x80000000 else 0)) ∧
  (isInf a = true → isNaN b = false → isZero b = false → isNaN c = false →
    f32Fma a b c = if isInf c = true ∧ f32Sign c ≠ f32Sign inf then none else some inf) ∧
  (isNaN a = false → isInf a = false → isNaN b = false → isInf b = false → isInf c = true →
    f32Fma a b c = some c) ∧
  (isNaN a = false → isInf a = false → f32Sub a a = some 0x00000000) ∧
  (f32Add 0x00000000 0x80000000 = some 0x00000000 ∧ f32Add 0x80000000 0x80000000 = some 0x80000000) ∧
  (f32Sign a = true → isNaN a = false → isZero a = false → f32Sqrt a = none) ∧
  (f32Sqrt 0x80000000 = some 0x80000000 ∧ f32Sqrt 0x7F800000 = some 0x7F800000)

/-- For every integer from -2^24 to 2^24 the conversion to float is exact, and FCVT.W.S, and for a
non-negative integer FCVT.WU.S, give the integer back whatever direction F2I_ROUND selects. The
spec marks as its own choice or inference: R219 (D20); R220 (D20); R225 (D19); R226 (D19). (From
R219, R220, R225, R226.) -/
def Obligations.SmallIntegersSurviveConversion : Prop :=
  ∀ (n : Int) (mode : Rounding), -2 ^ 24 ≤ n → n ≤ 2 ^ 24 →
  isNaN (f32FromInt n) = false ∧ f32ToInt mode (f32FromInt n) = n ∧
  f32Val (f32FromInt n) = n * 2 ^ 149 ∧ s32FromF32 mode (f32FromInt n) = BitVec.ofInt 32 n ∧
  (0 ≤ n → u32FromF32 mode (f32FromInt n) = BitVec.ofInt 32 n)

/-- In every state each of these double-precision instructions changes nothing but pc (+ 4) and the
counter (+ 1): no float cell in either view, no integer register (rd keeps its value), no byte, no
status bit, no flag; it reads no operand; its word is the one its rule gives. The spec marks as
its own choice or inference: R243 (D26); R244 (D26); R245 (D26); R246 (D26); R247 (D26); R248
(D26); R249 (D26); R250 (D26); R251 (D26); R252 (D26); R253 (D26); R254 (D26). (From R243, R244,
R245, R246, R247, R248, R249, R250, R251, R252, R253, R254.) -/
def Obligations.DoubleArithmeticStubs : Prop :=
  ∀ (s : State) (rd rs1 rs2 : Reg) (rm : BitVec 3),
  encode (.faddD rd rs1 rs2 rm) = 0b0000001#7 ++ regBits rs2 ++ regBits rs1 ++ rm ++ regBits rd ++ 0b1010011#7 ∧
  exec (.faddD rd rs1 rs2 rm) s = .next { s with pc := s.pc + 4, counter := s.counter + 1 } ∧
  encode (.fsubD rd rs1 rs2 rm) = 0b0000101#7 ++ regBits rs2 ++ regBits rs1 ++ rm ++ regBits rd ++ 0b1010011#7 ∧
  exec (.fsubD rd rs1 rs2 rm) s = .next { s with pc := s.pc + 4, counter := s.counter + 1 } ∧
  encode (.fmulD rd rs1 rs2 rm) = 0b0001001#7 ++ regBits rs2 ++ regBits rs1 ++ rm ++ regBits rd ++ 0b1010011#7 ∧
  exec (.fmulD rd rs1 rs2 rm) s = .next { s with pc := s.pc + 4, counter := s.counter + 1 } ∧
  encode (.fdivD rd rs1 rs2 rm) = 0b0001101#7 ++ regBits rs2 ++ regBits rs1 ++ rm ++ regBits rd ++ 0b1010011#7 ∧
  exec (.fdivD rd rs1 rs2 rm) s = .next { s with pc := s.pc + 4, counter := s.counter + 1 } ∧
  encode (.fsqrtD rd rs1 rm) = 0b0101101#7 ++ 0b00000#5 ++ regBits rs1 ++ rm ++ regBits rd ++ 0b1010011#7 ∧
  exec (.fsqrtD rd rs1 rm) s = .next { s with pc := s.pc + 4, counter := s.counter + 1 } ∧
  encode (.fsgnjD rd rs1 rs2) = 0b0010001#7 ++ regBits rs2 ++ regBits rs1 ++ 0b000#3 ++ regBits rd ++ 0b1010011#7 ∧
  exec (.fsgnjD rd rs1 rs2) s = .next { s with pc := s.pc + 4, counter := s.counter + 1 } ∧
  encode (.fsgnjnD rd rs1 rs2) = 0b0010001#7 ++ regBits rs2 ++ regBits rs1 ++ 0b001#3 ++ regBits rd ++ 0b1010011#7 ∧
  exec (.fsgnjnD rd rs1 rs2) s = .next { s with pc := s.pc + 4, counter := s.counter + 1 } ∧
  encode (.fsgnjxD rd rs1 rs2) = 0b0010001#7 ++ regBits rs2 ++ regBits rs1 ++ 0b010#3 ++ regBits rd ++ 0b1010011#7 ∧
  exec (.fsgnjxD rd rs1 rs2) s = .next { s with pc := s.pc + 4, counter := s.counter + 1 } ∧
  encode (.fminD rd rs1 rs2) = 0b0010101#7 ++ regBits rs2 ++ regBits rs1 ++ 0b000#3 ++ regBits rd ++ 0b1010011#7 ∧
  exec (.fminD rd rs1 rs2) s = .next { s with pc := s.pc + 4, counter := s.counter + 1 } ∧
  encode (.fmaxD rd rs1 rs2) = 0b0010101#7 ++ regBits rs2 ++ regBits rs1 ++ 0b001#3 ++ regBits rd ++ 0b1010011#7 ∧
  exec (.fmaxD rd rs1 rs2) s = .next { s with pc := s.pc + 4, counter := s.counter + 1 } ∧
  encode (.fcvtSD rd rs1 rm) = 0b0100000#7 ++ 0b00001#5 ++ regBits rs1 ++ rm ++ regBits rd ++ 0b1010011#7 ∧
  exec (.fcvtSD rd rs1 rm) s = .next { s with pc := s.pc + 4, counter := s.counter + 1 } ∧
  encode (.fcvtDS rd rs1 rm) = 0b0100001#7 ++ 0b00000#5 ++ regBits rs1 ++ rm ++ regBits rd ++ 0b1010011#7 ∧
  exec (.fcvtDS rd rs1 rm) s = .next { s with pc := s.pc + 4, counter := s.counter + 1 }

/-- In every state each of these double-precision instructions changes nothing but pc (+ 4) and the
counter (+ 1): no float cell in either view, no integer register (rd keeps its value), no byte, no
status bit, no flag; it reads no operand; its word is the one its rule gives. The spec marks as
its own choice or inference: R255 (D26); R256 (D26); R257 (D26); R258 (D26); R259 (D26); R260
(D26); R261 (D26); R262 (D26); R263 (D26); R264 (D26); R265 (D26); R266 (D26). (From R255, R256,
R257, R258, R259, R260, R261, R262, R263, R264, R265, R266.) -/
def Obligations.DoubleCompareConvertFusedStubs : Prop :=
  ∀ (s : State) (rd rs1 rs2 rs3 : Reg) (rm : BitVec 3),
  encode (.feqD rd rs1 rs2) = 0b1010001#7 ++ regBits rs2 ++ regBits rs1 ++ 0b010#3 ++ regBits rd ++ 0b1010011#7 ∧
  exec (.feqD rd rs1 rs2) s = .next { s with pc := s.pc + 4, counter := s.counter + 1 } ∧
  encode (.fltD rd rs1 rs2) = 0b1010001#7 ++ regBits rs2 ++ regBits rs1 ++ 0b001#3 ++ regBits rd ++ 0b1010011#7 ∧
  exec (.fltD rd rs1 rs2) s = .next { s with pc := s.pc + 4, counter := s.counter + 1 } ∧
  encode (.fleD rd rs1 rs2) = 0b1010001#7 ++ regBits rs2 ++ regBits rs1 ++ 0b000#3 ++ regBits rd ++ 0b1010011#7 ∧
  exec (.fleD rd rs1 rs2) s = .next { s with pc := s.pc + 4, counter := s.counter + 1 } ∧
  encode (.fclassD rd rs1) = 0b1110001#7 ++ 0b00000#5 ++ regBits rs1 ++ 0b001#3 ++ regBits rd ++ 0b1010011#7 ∧
  exec (.fclassD rd rs1) s = .next { s with pc := s.pc + 4, counter := s.counter + 1 } ∧
  encode (.fcvtWD rd rs1 rm) = 0b1100001#7 ++ 0b00000#5 ++ regBits rs1 ++ rm ++ regBits rd ++ 0b1010011#7 ∧
  exec (.fcvtWD rd rs1 rm) s = .next { s with pc := s.pc + 4, counter := s.counter + 1 } ∧
  encode (.fcvtWuD rd rs1 rm) = 0b1100001#7 ++ 0b00001#5 ++ regBits rs1 ++ rm ++ regBits rd ++ 0b1010011#7 ∧
  exec (.fcvtWuD rd rs1 rm) s = .next { s with pc := s.pc + 4, counter := s.counter + 1 } ∧
  encode (.fcvtDW rd rs1 rm) = 0b1101001#7 ++ 0b00000#5 ++ regBits rs1 ++ rm ++ regBits rd ++ 0b1010011#7 ∧
  exec (.fcvtDW rd rs1 rm) s = .next { s with pc := s.pc + 4, counter := s.counter + 1 } ∧
  encode (.fcvtDWu rd rs1 rm) = 0b1101001#7 ++ 0b00001#5 ++ regBits rs1 ++ rm ++ regBits rd ++ 0b1010011#7 ∧
  exec (.fcvtDWu rd rs1 rm) s = .next { s with pc := s.pc + 4, counter := s.counter + 1 } ∧
  encode (.fmaddD rd rs1 rs2 rs3 rm) = regBits rs3 ++ 0b01#2 ++ regBits rs2 ++ regBits rs1 ++ rm ++ regBits rd ++ 0b1000011#7 ∧
  exec (.fmaddD rd rs1 rs2 rs3 rm) s = .next { s with pc := s.pc + 4, counter := s.counter + 1 } ∧
  encode (.fmsubD rd rs1 rs2 rs3 rm) = regBits rs3 ++ 0b01#2 ++ regBits rs2 ++ regBits rs1 ++ rm ++ regBits rd ++ 0b1000111#7 ∧
  exec (.fmsubD rd rs1 rs2 rs3 rm) s = .next { s with pc := s.pc + 4, counter := s.counter + 1 } ∧
  encode (.fnmsubD rd rs1 rs2 rs3 rm) = regBits rs3 ++ 0b01#2 ++ regBits rs2 ++ regBits rs1 ++ rm ++ regBits rd ++ 0b1001011#7 ∧
  exec (.fnmsubD rd rs1 rs2 rs3 rm) s = .next { s with pc := s.pc + 4, counter := s.counter + 1 } ∧
  encode (.fnmaddD rd rs1 rs2 rs3 rm) = regBits rs3 ++ 0b01#2 ++ regBits rs2 ++ regBits rs1 ++ rm ++ regBits rd ++ 0b1001111#7 ∧
  exec (.fnmaddD rd rs1 rs2 rs3 rm) s = .next { s with pc := s.pc + 4, counter := s.counter + 1 }

/-- For every implementation, image and host memory, machine initialisation leaves x[0] 0, status 0,
the fault flag 0, the counter 0, the code image the bytes of the image, all 16 slots inactive and
all four hooks absent; re-initialising any state is initialisation with the image as it stands, so
that nothing else of the run survives. (The values of the other registers, of pc and of the stack
bytes are the model's choices, log entries 1 to 4, and are not claimed here.) The spec marks as
its own choice or inference: R52 (D31, D32); R300 (D31); R302 (D35). (From R52, R300, R302.) -/
def Obligations.Initialisation : Prop :=
  (∀ (p : Params) (img : Image) (host : Memory),
    let s := State.initialise p img host
    s.readX 0 = 0 ∧ s.status = 0 ∧ s.fault = false ∧ s.counter = 0 ∧ s.image = img ∧
    (∀ k : Fin 16, (s.slots[k]).active = false) ∧ (∀ k, s.hooks.present k = false)) ∧
  ∀ s : State, s.reinitialise = State.initialise s.params s.image s.hostMem ∧
    ∀ t : State, t.image = s.image → t.hostMem = s.hostMem → t.params = s.params →
      t.reinitialise = s.reinitialise

/-- At reset the code origin is above 4, MAP_TAG is not 0 and its window meets neither region, every
active slot is within bounds, the byte stores are canonical and inside their buffers, and the
fault flag agrees with status. (The code origin of the reset image is the model's choice, log
entry 5.) The spec marks as its own choice or inference: R64 (D7); R52 (D31, D32). (From R51, R64,
R52.) -/
def Obligations.InvariantAtReset : Prop :=
  State.reset.Inv ∧ State.reset.params.mapTag ≠ 0 ∧ State.reset.image.codeOrigin.toNat > 4

/-- From every state with the invariant, not only reached ones, whatever exec_en and echo_en, whatever
the word and whatever a present hook does, a step that answers a next state keeps it: the region
and tag constraints, slot bounds and bases, canonical byte stores inside their buffers, and a set
fault flag only with status {NATIVE}. The spec marks as its own choice or inference: R64 (D7); R47
(D6); R271 (D36). (From R51, R64, R47, R271.) -/
def Obligations.InvariantKeptByEveryStep : Prop :=
  ∀ s t : State, s.Inv → step s = .next t → t.Inv

/-- From every state with the invariant, mapping and unmapping slots, writing registers by index and
by ABI name, float cells, pc by value, symbol index or symbol name, and host buffers, setting
hooks and echo, requesting a step, re-initialising and the boot duties keep it. The spec marks as
its own choice or inference: R70 (D6, D42); R71 (D43); R304 (D32); R305 (D39). (From R51, R70,
R71, R12, R304, R305.) -/
def Obligations.InvariantKeptByTheHost : Prop :=
  ∀ s : State, s.Inv →
  (∀ b n t a, s.map b n = some (t, a) → t.Inv) ∧ (∀ a, (s.unmap a).1.Inv) ∧
  (∀ r v, (s.pokeX r v).Inv) ∧ (∀ n v t, s.writeNamed n v = some t → t.Inv) ∧
  (∀ r v, (s.writeFS r v).Inv) ∧ (∀ r v, (s.writeFD r v).Inv) ∧
  (∀ a, (s.setPc a).Inv) ∧ (∀ i t, s.setPcToIndex i = some t → t.Inv) ∧
  (∀ n t, s.setPcToName n = some t → t.Inv) ∧ (∀ k b, (s.setHook k b).Inv) ∧ (∀ a bs, (s.writeHost a bs).Inv) ∧
  (∀ x e, (s.request x e).Inv) ∧ (∀ c, (s.setEcho c).Inv) ∧ s.reinitialise.Inv ∧
  ∀ args entry e, (s.boot args entry e).Inv

/-- A size above 0x10000, or no inactive slot among 16, makes map return 0 and change nothing; else
the least inactive slot k becomes active with the buffer, the size and the base MAP_TAG, k, 20
zeros, which is returned, and nothing else changes. For a tagged address unmap makes slot
address[23:20] inactive, whatever the low 20 bits, and changes nothing else, the host buffer
included; for any other it reports an error and changes no state; under the invariant no address
of the unmapped slot resolves afterwards. The spec marks as its own choice or inference: R70 (D6,
D42); R71 (D43). (From R70, R71.) -/
def Obligations.MapAndUnmap : Prop :=
  (∀ (s : State) (buf : HostBuffer) (size : Nat),
    (size > 0x10000 → s.map buf size = some (s, 0)) ∧
    ((∀ k : Fin 16, (s.slots[k]).active = true) → s.map buf size = some (s, 0)) ∧
    (∀ k : Fin 16, size ≤ 0x10000 → size ≤ buf.len → (s.slots[k]).active = false →
      (∀ j : Fin 16, j < k → (s.slots[j]).active = true) →
      ∃ t, s.map buf size = some (t, slotBase s.params.mapTag k) ∧
        t.slots[k] = ⟨true, buf.start, size, slotBase s.params.mapTag k⟩ ∧
        (∀ j : Fin 16, j ≠ k → t.slots[j] = s.slots[j]) ∧ t = { s with slots := t.slots })) ∧
  ∀ (s : State) (a : Word),
    (addrTag a = s.params.mapTag → (s.unmap a).2 = true ∧
      ((s.unmap a).1.slots[addrSlot a]).active = false ∧
      (∀ j : Fin 16, j ≠ addrSlot a → (s.unmap a).1.slots[j] = s.slots[j]) ∧
      (s.unmap a).1 = { s with slots := (s.unmap a).1.slots }) ∧
    (addrTag a ≠ s.params.mapTag → s.unmap a = (s, false)) ∧
    (s.Inv → addrTag a = s.params.mapTag → ∀ b : Word, addrTag b = s.params.mapTag →
      addrSlot b = addrSlot a → (s.unmap a).1.resolve b = none)

/-- For every state, argument list and entry address, the boot operation leaves ra at NATIVE_PC, sp at
CODE_ORIGIN (the choice of the spec's examples), gp at the image's value, the arguments in a0
upward to a7, pc at the entry and a step request with exec_en = 1 and the echo_en asked for; every
other integer register and every other piece of state is unchanged: float cells, status, the fault
flag, the counter, stack, image and host bytes, slots, hooks, echo configuration and parameters.
(That arguments beyond the eighth are dropped is the model's choice, log entry 30.) The spec marks
as its own choice or inference: R304 (D32); R193 (D32). (From R304, R193.) -/
def Obligations.BootDuties : Prop :=
  ∀ (s : State) (args : List Word) (entry : Word) (echo : Bool),
  let t := s.boot args entry echo
  t.readX 1 = s.params.nativePc ∧ t.readX 2 = s.image.codeOrigin ∧ t.readX 3 = s.image.gp ∧
  (∀ i (h : i < args.length) (hr : 10 + i < 18), t.readX ⟨10 + i, Nat.lt_trans hr (by decide)⟩ = args[i]) ∧
  (∀ r : Reg, r.val ∉ [1, 2, 3] → ¬(10 ≤ r.val ∧ r.val < 18 ∧ r.val < 10 + args.length) →
    t.readX r = s.readX r) ∧
  t = { s with x := t.x, pc := entry, execEn := true, echoEn := echo }

/-- find gives the least index whose name equals the given name byte for byte; address, insn_count
(size / 4) and set_pc by index give the entry's; set_pc by name goes through find; a missing name
or an index out of range is refused; setting pc changes nothing else. The spec marks as its own
choice or inference: R305 (D39). (From R305.) -/
def Obligations.SymbolLookup : Prop :=
  ∀ (s : State) (name : List Byte),
  (∀ i, s.findFunc name = some i ↔
    (∃ e, s.image.funcs[i]? = some e ∧ e.name = name) ∧
    ∀ j e, j < i → s.image.funcs[j]? = some e → e.name ≠ name) ∧
  (∀ i e, s.image.funcs[i]? = some e → s.funcAddress i = some e.address ∧
    s.insnCount i = some (e.size / 4) ∧ s.setPcToIndex i = some { s with pc := e.address }) ∧
  (∀ i, s.image.funcs.length ≤ i → s.funcAddress i = none ∧ s.insnCount i = none ∧ s.setPcToIndex i = none) ∧
  (∀ i e, s.findFunc name = some i → s.image.funcs[i]? = some e →
    s.setPcToName name = some { s with pc := e.address }) ∧
  (s.findFunc name = none → s.setPcToName name = none)

/-- Recognition follows the eight patterns of R111 in its order, and the expansion of a recognised
pseudo-instruction is the instruction itself with all its operands. The spec marks as its own
choice or inference: R111 (D44). (From R111.) -/
def Obligations.PseudoInstructionsAreSpellings : Prop :=
  (∀ (i : Instr) (q : Pseudo), pseudoOf i = some q → q.expand = i) ∧
  (∀ q : Pseudo, ∃ q', pseudoOf q.expand = some q') ∧
  (∀ (rd rs1 : Reg) (imm : BitVec 12), pseudoOf (.addi rd rs1 imm) =
    if encode (.addi rd rs1 imm) = 0x00000013#32 then some .nop
    else if rs1 = 0 then some (.li rd imm) else if imm = 0 then some (.mv rd rs1) else none) ∧
  (∀ (rd rs1 : Reg) (imm : BitVec 12), pseudoOf (.jalr rd rs1 imm) =
    if encode (.jalr rd rs1 imm) = 0x00008067#32 then some .ret else none) ∧
  (∀ (rd : Reg) (off : BitVec 21), pseudoOf (.jal rd off) = if rd = 0 then some (.j off) else none) ∧
  ∀ rd rs1 rs2 : Reg,
    pseudoOf (.fsgnjS rd rs1 rs2) = (if rs1 = rs2 then some (.fmvS rd rs1) else none) ∧
    pseudoOf (.fsgnjnS rd rs1 rs2) = (if rs1 = rs2 then some (.fnegS rd rs1) else none) ∧
    pseudoOf (.fsgnjxS rd rs1 rs2) = (if rs1 = rs2 then some (.fabsS rd rs1) else none)

/-- MODEL'S CHOICE, log entry 5: placing a word (the load of a program from outside) makes the next
fetch give exactly that word, with the fault flag clear and exec_en = 1; registers, stack, host
memory, slots, hooks, parameters, the counter and the code origin are unchanged, and pc is
unchanged where it already named an aligned word inside the image. The spec marks as its own
choice or inference: R75 (D5); R300 (D31); R304 (D32). (From R75, R300, R304,
70_reset_and_hazards.md.) -/
def Obligations.PlacedWordIsFetchedNext : Prop :=
  ∀ (s : State) (w : Word), s.image.code.wf = true → s.image.codeOrigin.toNat ≤ 0xFFFFFFFC →
  let t := s.withFetchWord 32 w.toNat
  t.fetch = .ok w ∧ t.fault = false ∧ t.execEn = true ∧ t.x = s.x ∧ t.f = s.f ∧ t.stack = s.stack ∧
  t.hostMem = s.hostMem ∧ t.slots = s.slots ∧ t.hooks = s.hooks ∧ t.params = s.params ∧
  t.counter = s.counter ∧ t.image.codeOrigin = s.image.codeOrigin ∧
  (s.fetch = .error .misalignedFetch ∨ s.fetch = .error .fetchOutsideCode ∨ t.pc = s.pc)

/-- For finite operands f32_mul gives the pattern the exact product rounds to, f32_div for a divisor
that is no zero the pattern the exact quotient rounds to, and f32_fma the pattern the exact a*b +
c rounds to in one rounding: never a NaN, an infinity exactly from the overflow threshold, else
the nearest finite pattern, subnormals included, even in a tie, of the sign of the exact value; a
product or quotient has the exclusive or of the signs, zero included, and an exact zero of a*b + c
is +0 unless the product and c are both negative. (Values are numbers of units of 2^-149.) The
spec marks as its own choice or inference: R205 (D19, D20, D21, D22, D23, D24, D25); R212 (D23);
R228 (D24). (From R205, R211, R212, R228.) -/
def Obligations.ProductQuotientAndFusedAreNearest : Prop :=
  (∀ a b : Word, isNaN a = false → isNaN b = false → isInf a = false → isInf b = false →
    (∃ r, f32Mul a b = some r ∧ NearestPattern r (f32Val a * f32Val b) (2 ^ 149) ∧
      (f32Sign r = true ↔ f32Sign a ≠ f32Sign b)) ∧
    (isZero b = false → ∃ r, f32Div a b = some r ∧
      NearestPattern r (f32Val a * 2 ^ 149 * (f32Val b).sign) (f32Mag b) ∧
      (f32Sign r = true ↔ f32Sign a ≠ f32Sign b))) ∧
  ∀ a b c : Word, isNaN a = false → isNaN b = false → isNaN c = false →
    isInf a = false → isInf b = false → isInf c = false →
    ∃ r, f32Fma a b c = some r ∧ NearestPattern r (f32Val a * f32Val b + f32Val c * 2 ^ 149) (2 ^ 149) ∧
      (f32Val a * f32Val b + f32Val c * 2 ^ 149 = 0 →
        r = if f32Sign a ≠ f32Sign b ∧ f32Sign c = true then 0x80000000 else 0)

end
end

