-- ==== Sys2Proof/Laws/Decode.lean ====
section
/-!
SUPPORT. The fields of an encoded word, format by format, and the choice of the one row a word fits.
-/

namespace Sys2Proof

/-- The number a concatenation spells. -/
theorem toNat_append_sum {m n : Nat} (x : BitVec m) (y : BitVec n) :
    (x ++ y).toNat = x.toNat * 2 ^ n + y.toNat := by
  rw [BitVec.toNat_append, Nat.shiftLeft_eq, Nat.mul_comm, Nat.two_pow_add_eq_or_of_lt y.isLt]

/-- The number a bit field spells. -/
theorem toNat_field {n : Nat} (w : BitVec n) (lo len : Nat) :
    (w.extractLsb' lo len).toNat = w.toNat / 2 ^ lo % 2 ^ len := by
  rw [BitVec.extractLsb'_toNat, Nat.shiftRight_eq_div_pow]

@[simp] theorem toNat_regBits (r : Reg) : (regBits r).toNat = r.val := rfl

@[simp] theorem regBits_toFin (r : Reg) : (regBits r).toFin = r := rfl

@[simp] theorem regBits_zero : regBits 0 = 0#5 := rfl
@[simp] theorem regBits_one : regBits 1 = 1#5 := rfl

theorem regBits_ofField (b : BitVec 5) : regBits b.toFin = b := rfl

/-! ### R format -/

section R
variable (f7 : BitVec 7) (b a : Reg) (f3 : BitVec 3) (d : Reg) (op : BitVec 7)

theorem toNat_encR : (encR f7 b a f3 d op).toNat =
    ((((f7.toNat * 32 + b.val) * 32 + a.val) * 8 + f3.toNat) * 32 + d.val) * 128 + op.toNat := by
  simp only [encR, toNat_append_sum, toNat_regBits]; norm_num

@[simp] theorem opcode_encR : Field.opcode (encR f7 b a f3 d op) = op := by
  apply BitVec.eq_of_toNat_eq; have := op.isLt
  rw [Field.opcode, toNat_field, toNat_encR]; omega
@[simp] theorem rd_encR : Field.rd (encR f7 b a f3 d op) = d := by
  apply Fin.ext; have := op.isLt; have := d.isLt
  show (BitVec.extractLsb' 7 5 _).toNat = _
  rw [toNat_field, toNat_encR]; omega
@[simp] theorem funct3_encR : Field.funct3 (encR f7 b a f3 d op) = f3 := by
  apply BitVec.eq_of_toNat_eq; have := op.isLt; have := d.isLt; have := f3.isLt
  rw [Field.funct3, toNat_field, toNat_encR]; omega
@[simp] theorem rs1_encR : Field.rs1 (encR f7 b a f3 d op) = a := by
  apply Fin.ext; have := op.isLt; have := d.isLt; have := f3.isLt; have := a.isLt
  show (BitVec.extractLsb' 15 5 _).toNat = _
  rw [toNat_field, toNat_encR]; omega
@[simp] theorem rs2Bits_encR : Field.rs2Bits (encR f7 b a f3 d op) = regBits b := by
  apply BitVec.eq_of_toNat_eq
  have := op.isLt; have := d.isLt; have := f3.isLt; have := a.isLt; have := b.isLt
  rw [Field.rs2Bits, toNat_field, toNat_encR, toNat_regBits]; omega
@[simp] theorem rs2_encR : Field.rs2 (encR f7 b a f3 d op) = b := by simp [Field.rs2]
@[simp] theorem funct7_encR : Field.funct7 (encR f7 b a f3 d op) = f7 := by
  apply BitVec.eq_of_toNat_eq
  have := op.isLt; have := d.isLt; have := f3.isLt; have := a.isLt; have := b.isLt; have := f7.isLt
  rw [Field.funct7, toNat_field, toNat_encR]; omega

end R

/-! ### R4 format -/

section R4
variable (c : Reg) (fm : BitVec 2) (b a : Reg) (f3 : BitVec 3) (d : Reg) (op : BitVec 7)

/-- The R4 format is the R format with `funct7` split. -/
theorem encR4_eq_encR : encR4 c fm b a f3 d op = encR (regBits c ++ fm) b a f3 d op := rfl

@[simp] theorem opcode_encR4 : Field.opcode (encR4 c fm b a f3 d op) = op := opcode_encR ..
@[simp] theorem rd_encR4 : Field.rd (encR4 c fm b a f3 d op) = d := rd_encR ..
@[simp] theorem funct3_encR4 : Field.funct3 (encR4 c fm b a f3 d op) = f3 := funct3_encR ..
@[simp] theorem rs1_encR4 : Field.rs1 (encR4 c fm b a f3 d op) = a := rs1_encR ..
@[simp] theorem rs2_encR4 : Field.rs2 (encR4 c fm b a f3 d op) = b := rs2_encR ..

theorem toNat_encR4 : (encR4 c fm b a f3 d op).toNat =
    (((((c.val * 4 + fm.toNat) * 32 + b.val) * 32 + a.val) * 8 + f3.toNat) * 32 + d.val) * 128
      + op.toNat := by
  simp only [encR4, toNat_append_sum, toNat_regBits]; norm_num

@[simp] theorem fmt_encR4 : Field.fmt (encR4 c fm b a f3 d op) = fm := by
  apply BitVec.eq_of_toNat_eq
  have := op.isLt; have := d.isLt; have := f3.isLt; have := a.isLt; have := b.isLt; have := fm.isLt
  rw [Field.fmt, toNat_field, toNat_encR4]; omega
@[simp] theorem rs3_encR4 : Field.rs3 (encR4 c fm b a f3 d op) = c := by
  apply Fin.ext
  have := op.isLt; have := d.isLt; have := f3.isLt; have := a.isLt; have := b.isLt; have := fm.isLt
  have := c.isLt
  show (BitVec.extractLsb' 27 5 _).toNat = _
  rw [toNat_field, toNat_encR4]; omega

end R4

/-! ### I format -/

section I
variable (imm : BitVec 12) (a : Reg) (f3 : BitVec 3) (d : Reg) (op : BitVec 7)

theorem toNat_encI : (encI imm a f3 d op).toNat =
    (((imm.toNat * 32 + a.val) * 8 + f3.toNat) * 32 + d.val) * 128 + op.toNat := by
  simp only [encI, toNat_append_sum, toNat_regBits]; norm_num

@[simp] theorem opcode_encI : Field.opcode (encI imm a f3 d op) = op := by
  apply BitVec.eq_of_toNat_eq; have := op.isLt
  rw [Field.opcode, toNat_field, toNat_encI]; omega
@[simp] theorem rd_encI : Field.rd (encI imm a f3 d op) = d := by
  apply Fin.ext; have := op.isLt; have := d.isLt
  show (BitVec.extractLsb' 7 5 _).toNat = _
  rw [toNat_field, toNat_encI]; omega
@[simp] theorem funct3_encI : Field.funct3 (encI imm a f3 d op) = f3 := by
  apply BitVec.eq_of_toNat_eq; have := op.isLt; have := d.isLt; have := f3.isLt
  rw [Field.funct3, toNat_field, toNat_encI]; omega
@[simp] theorem rs1_encI : Field.rs1 (encI imm a f3 d op) = a := by
  apply Fin.ext; have := op.isLt; have := d.isLt; have := f3.isLt; have := a.isLt
  show (BitVec.extractLsb' 15 5 _).toNat = _
  rw [toNat_field, toNat_encI]; omega
@[simp] theorem immI12_encI : Field.immI12 (encI imm a f3 d op) = imm := by
  apply BitVec.eq_of_toNat_eq
  have := op.isLt; have := d.isLt; have := f3.isLt; have := a.isLt; have := imm.isLt
  rw [Field.immI12, toNat_field, toNat_encI]; omega

end I

/-! ### OP-IMM shifts -/

section Shift
variable (f7 : BitVec 7) (sh : BitVec 5) (a : Reg) (f3 : BitVec 3) (d : Reg) (op : BitVec 7)

/-- The shift format is the R format with `shamt` in place of `rs2`. -/
theorem encShift_eq_encR : encShift f7 sh a f3 d op = encR f7 sh.toFin a f3 d op := rfl

@[simp] theorem opcode_encShift : Field.opcode (encShift f7 sh a f3 d op) = op := opcode_encR ..
@[simp] theorem rd_encShift : Field.rd (encShift f7 sh a f3 d op) = d := rd_encR ..
@[simp] theorem funct3_encShift : Field.funct3 (encShift f7 sh a f3 d op) = f3 := funct3_encR ..
@[simp] theorem rs1_encShift : Field.rs1 (encShift f7 sh a f3 d op) = a := rs1_encR ..
@[simp] theorem shamt_encShift : Field.shamt (encShift f7 sh a f3 d op) = sh := rs2Bits_encR ..
@[simp] theorem funct7_encShift : Field.funct7 (encShift f7 sh a f3 d op) = f7 := funct7_encR ..

end Shift

/-! ### S format -/

section S
variable (imm : BitVec 12) (b a : Reg) (f3 : BitVec 3) (op : BitVec 7)

/-- The S format is the R format with the immediate in the places of `funct7` and `rd`. -/
theorem encS_eq_encR : encS imm b a f3 op =
    encR (imm.extractLsb' 5 7) b a f3 (imm.extractLsb' 0 5).toFin op := rfl

@[simp] theorem opcode_encS : Field.opcode (encS imm b a f3 op) = op := opcode_encR ..
@[simp] theorem funct3_encS : Field.funct3 (encS imm b a f3 op) = f3 := funct3_encR ..
@[simp] theorem rs1_encS : Field.rs1 (encS imm b a f3 op) = a := rs1_encR ..
@[simp] theorem rs2_encS : Field.rs2 (encS imm b a f3 op) = b := rs2_encR ..
@[simp] theorem immS12_encS : Field.immS12 (encS imm b a f3 op) = imm := by
  have h1 : (encS imm b a f3 op).extractLsb' 25 7 = imm.extractLsb' 5 7 := funct7_encR ..
  have h2 : (encS imm b a f3 op).extractLsb' 7 5 = imm.extractLsb' 0 5 := by
    apply BitVec.eq_of_toFin_eq; exact rd_encR ..
  apply BitVec.eq_of_toNat_eq; have := imm.isLt
  rw [Field.immS12, h1, h2, toNat_append_sum, toNat_field, toNat_field]; omega

end S

/-! ### SB format -/

section SB
variable (off : BitVec 13) (b a : Reg) (f3 : BitVec 3) (op : BitVec 7)

/-- The SB format is the R format with the offset in the places of `funct7` and `rd`. -/
theorem encSB_eq_encR : encSB off b a f3 op =
    encR (off.extractLsb' 12 1 ++ off.extractLsb' 5 6) b a f3
      (off.extractLsb' 1 4 ++ off.extractLsb' 11 1).toFin op := by
  apply BitVec.eq_of_toNat_eq
  have hr (x : BitVec 5) : (regBits x.toFin).toNat = x.toNat := rfl
  simp only [encSB, encR, toNat_append_sum, hr]
  norm_num
  omega

@[simp] theorem opcode_encSB : Field.opcode (encSB off b a f3 op) = op := by
  rw [encSB_eq_encR, opcode_encR]
@[simp] theorem funct3_encSB : Field.funct3 (encSB off b a f3 op) = f3 := by
  rw [encSB_eq_encR, funct3_encR]
@[simp] theorem rs1_encSB : Field.rs1 (encSB off b a f3 op) = a := by
  rw [encSB_eq_encR, rs1_encR]
@[simp] theorem rs2_encSB : Field.rs2 (encSB off b a f3 op) = b := by
  rw [encSB_eq_encR, rs2_encR]

/-- The scattered offset bits of a word are those of its `funct7` and `rd` fields. -/
theorem toNat_immSB13 (w : Word) : (Field.immSB13 w).toNat =
    (Field.funct7 w).toNat / 64 * 4096 + (Field.rd w).val % 2 * 2048 +
      (Field.funct7 w).toNat % 64 * 32 + (Field.rd w).val / 2 * 2 := by
  have hr : (Field.rd w).val = (w.extractLsb' 7 5).toNat := rfl
  have hw := w.isLt
  have h1 : w.toNat / 2 ^ 25 % 2 ^ 7 = w.toNat / 2 ^ 31 % 2 ^ 1 * 64 + w.toNat / 2 ^ 25 % 2 ^ 6 := by
    omega
  have h2 : w.toNat / 2 ^ 7 % 2 ^ 5 = w.toNat / 2 ^ 8 % 2 ^ 4 * 2 + w.toNat / 2 ^ 7 % 2 ^ 1 := by
    omega
  rw [hr]
  simp only [Field.immSB13, Field.funct7, toNat_append_sum, toNat_field, BitVec.toNat_ofNat, h1, h2]
  generalize w.toNat / 2 ^ 31 % 2 ^ 1 = p
  have : w.toNat / 2 ^ 25 % 2 ^ 6 < 64 := Nat.mod_lt _ (by decide)
  generalize w.toNat / 2 ^ 25 % 2 ^ 6 = q at *
  generalize w.toNat / 2 ^ 8 % 2 ^ 4 = r
  have : w.toNat / 2 ^ 7 % 2 ^ 1 < 2 := Nat.mod_lt _ (by decide)
  generalize w.toNat / 2 ^ 7 % 2 ^ 1 = t at *
  omega

theorem immSB13_encSB (h : evenOffset13 off = true) : Field.immSB13 (encSB off b a f3 op) = off := by
  apply BitVec.eq_of_toNat_eq
  have he : off.toNat / 2 ^ 0 % 2 ^ 1 = 0 := by
    rw [← toNat_field]; simpa [evenOffset13] using congrArg BitVec.toNat (eq_of_beq h)
  have hr (x : BitVec 5) : x.toFin.val = x.toNat := rfl
  have := off.isLt
  rw [toNat_immSB13, encSB_eq_encR, funct7_encR, rd_encR, hr]
  simp only [toNat_append_sum, toNat_field]
  generalize off.toNat = n at *
  have h1 : (n / 2 ^ 12 % 2 ^ 1 * 2 ^ 6 + n / 2 ^ 5 % 2 ^ 6) / 64 = n / 4096 := by omega
  have h2 : (n / 2 ^ 12 % 2 ^ 1 * 2 ^ 6 + n / 2 ^ 5 % 2 ^ 6) % 64 = n / 32 % 64 := by omega
  have h3 : (n / 2 ^ 1 % 2 ^ 4 * 2 ^ 1 + n / 2 ^ 11 % 2 ^ 1) % 2 = n / 2048 % 2 := by omega
  have h4 : (n / 2 ^ 1 % 2 ^ 4 * 2 ^ 1 + n / 2 ^ 11 % 2 ^ 1) / 2 = n / 2 % 16 := by omega
  rw [h1, h2, h3, h4]
  have h5 : n / 2 / 16 = n / 32 := by omega
  have h6 : n / 32 / 64 = n / 2048 := by omega
  have h7 : n / 2048 / 2 = n / 4096 := by omega
  omega

end SB

/-! ### U format -/

section U
variable (imm : BitVec 20) (d : Reg) (op : BitVec 7)

theorem toNat_encU : (encU imm d op).toNat = (imm.toNat * 32 + d.val) * 128 + op.toNat := by
  simp only [encU, toNat_append_sum, toNat_regBits]; norm_num

@[simp] theorem opcode_encU : Field.opcode (encU imm d op) = op := by
  apply BitVec.eq_of_toNat_eq; have := op.isLt
  rw [Field.opcode, toNat_field, toNat_encU]; omega
@[simp] theorem rd_encU : Field.rd (encU imm d op) = d := by
  apply Fin.ext; have := op.isLt; have := d.isLt
  show (BitVec.extractLsb' 7 5 _).toNat = _
  rw [toNat_field, toNat_encU]; omega
@[simp] theorem immU20_encU : Field.immU20 (encU imm d op) = imm := by
  apply BitVec.eq_of_toNat_eq; have := op.isLt; have := d.isLt; have := imm.isLt
  rw [Field.immU20, toNat_field, toNat_encU]; omega

end U

/-! ### UJ format -/

section UJ
variable (off : BitVec 21) (d : Reg) (op : BitVec 7)

/-- The UJ format is the U format with the offset's bits permuted. -/
theorem encUJ_eq_encU : encUJ off d op =
    encU (off.extractLsb' 20 1 ++ off.extractLsb' 1 10 ++ off.extractLsb' 11 1 ++
      off.extractLsb' 12 8) d op := rfl

@[simp] theorem opcode_encUJ : Field.opcode (encUJ off d op) = op := opcode_encU ..
@[simp] theorem rd_encUJ : Field.rd (encUJ off d op) = d := rd_encU ..

/-- The scattered offset bits of a word are those of its U immediate. -/
theorem toNat_immUJ21 (w : Word) : (Field.immUJ21 w).toNat =
    (Field.immU20 w).toNat / 524288 * 1048576 + (Field.immU20 w).toNat % 256 * 4096 +
      (Field.immU20 w).toNat / 256 % 2 * 2048 + (Field.immU20 w).toNat / 512 % 1024 * 2 := by
  have hw := w.isLt
  have h1 : w.toNat / 2 ^ 12 % 2 ^ 20 / 524288 = w.toNat / 2 ^ 31 % 2 ^ 1 := by omega
  have h2 : w.toNat / 2 ^ 12 % 2 ^ 20 % 256 = w.toNat / 2 ^ 12 % 2 ^ 8 := by omega
  have h3 : w.toNat / 2 ^ 12 % 2 ^ 20 / 256 % 2 = w.toNat / 2 ^ 20 % 2 ^ 1 := by omega
  have h4 : w.toNat / 2 ^ 12 % 2 ^ 20 / 512 % 1024 = w.toNat / 2 ^ 21 % 2 ^ 10 := by omega
  simp only [Field.immUJ21, Field.immU20, toNat_append_sum, toNat_field, BitVec.toNat_ofNat,
    h1, h2, h3, h4]
  generalize w.toNat / 2 ^ 31 % 2 ^ 1 = p
  generalize w.toNat / 2 ^ 12 % 2 ^ 8 = q
  generalize w.toNat / 2 ^ 20 % 2 ^ 1 = r
  generalize w.toNat / 2 ^ 21 % 2 ^ 10 = t
  omega

theorem immUJ21_encUJ (h : evenOffset21 off = true) : Field.immUJ21 (encUJ off d op) = off := by
  apply BitVec.eq_of_toNat_eq
  have he : off.toNat / 2 ^ 0 % 2 ^ 1 = 0 := by
    rw [← toNat_field]; simpa [evenOffset21] using congrArg BitVec.toNat (eq_of_beq h)
  have := off.isLt
  obtain ⟨v, hv⟩ : ∃ v, v = (off.extractLsb' 20 1 ++ off.extractLsb' 1 10 ++ off.extractLsb' 11 1 ++
      off.extractLsb' 12 8).toNat := ⟨_, rfl⟩
  rw [toNat_immUJ21, encUJ_eq_encU, immU20_encU, ← hv]
  simp only [toNat_append_sum, toNat_field] at hv
  generalize off.toNat = n at *
  have hA : n / 2 ^ 20 % 2 ^ 1 < 2 := Nat.mod_lt _ (by decide)
  have hB : n / 2 ^ 1 % 2 ^ 10 < 1024 := Nat.mod_lt _ (by decide)
  have hC : n / 2 ^ 11 % 2 ^ 1 < 2 := Nat.mod_lt _ (by decide)
  have hD : n / 2 ^ 12 % 2 ^ 8 < 256 := Nat.mod_lt _ (by decide)
  have hp : n / 1048576 = n / 2 ^ 20 % 2 ^ 1 := by omega
  have hq : n / 4096 % 256 = n / 2 ^ 12 % 2 ^ 8 := rfl
  have hr : n / 2048 % 2 = n / 2 ^ 11 % 2 ^ 1 := rfl
  have ht : n / 2 % 1024 = n / 2 ^ 1 % 2 ^ 10 := rfl
  have h5 : n / 2 / 1024 = n / 2048 := by omega
  have h6 : n / 2048 / 2 = n / 4096 := by omega
  have h7 : n / 4096 / 256 = n / 1048576 := by omega
  have hn : n = n / 2 ^ 20 % 2 ^ 1 * 1048576 + n / 2 ^ 12 % 2 ^ 8 * 4096 + n / 2 ^ 11 % 2 ^ 1 * 2048 +
      n / 2 ^ 1 % 2 ^ 10 * 2 := by
    rw [← hp, ← hq, ← hr, ← ht]; omega
  generalize n / 2 ^ 20 % 2 ^ 1 = A at *
  generalize n / 2 ^ 1 % 2 ^ 10 = B at *
  generalize n / 2 ^ 11 % 2 ^ 1 = C at *
  generalize n / 2 ^ 12 % 2 ^ 8 = D at *
  clear hp hq hr ht h5 h6 h7 he
  have h1 : v / 524288 = A := by omega
  have h2 : v % 256 = D := by omega
  have h3 : v / 256 % 2 = C := by omega
  have h8 : v / 512 = A * 1024 + B := by omega
  have h4 : v / 512 % 1024 = B := by omega
  rw [h1, h2, h3, h4, ← hn]

end UJ

/-! ### The length check on an encoded word -/

/-- The length check looks at the opcode alone. -/
theorem is32_eq_opcode (w : Word) : is32 w =
    ((Field.opcode w).extractLsb' 0 2 == 0b11#2 && (Field.opcode w).extractLsb' 2 3 != 0b111#3) := by
  have h0 : w.extractLsb' 0 2 = (Field.opcode w).extractLsb' 0 2 := by
    apply BitVec.eq_of_toNat_eq
    simp only [Field.opcode, toNat_field]; omega
  have h1 : w.extractLsb' 2 3 = (Field.opcode w).extractLsb' 2 3 := by
    apply BitVec.eq_of_toNat_eq
    simp only [Field.opcode, toNat_field]; omega
  rw [is32, h0, h1]

/-! ### The row a word fits -/

/-- Two selectors no word fits both of: they fix different opcodes, or a further field both fix. -/
def Selector.clash (a b : Selector) : Bool :=
  a.opcode != b.opcode ||
  (match a.funct3, b.funct3 with | some x, some y => x != y | _, _ => false) ||
  (match a.funct7, b.funct7 with | some x, some y => x != y | _, _ => false) ||
  (match a.rs2, b.rs2 with | some x, some y => x != y | _, _ => false) ||
  (match a.fmt, b.fmt with | some x, some y => x != y | _, _ => false) ||
  (match a.word, b.word with | some x, some y => x != y | _, _ => false)

theorem Selector.not_fits_of_clash {a b : Selector} (h : a.clash b = true) (w : Word) :
    ¬(a.fits w = true ∧ b.fits w = true) := by
  rintro ⟨ha, hb⟩
  simp only [Selector.fits, Bool.and_eq_true, beq_iff_eq] at ha hb
  obtain ⟨⟨⟨⟨⟨ha1, ha2⟩, ha3⟩, ha4⟩, ha5⟩, ha6⟩ := ha
  obtain ⟨⟨⟨⟨⟨hb1, hb2⟩, hb3⟩, hb4⟩, hb5⟩, hb6⟩ := hb
  simp only [Selector.clash, Bool.or_eq_true] at h
  rcases h with ((((h | h) | h) | h) | h) | h
  · simp [← ha1, ← hb1] at h
  all_goals
    split at h
    · next x y hx hy => simp_all
    · simp at h

/-- The rows of the opcode table clash pairwise (R102). -/
theorem opcodeRows_clash : opcodeRows.Pairwise fun a b => a.sel.clash b.sel = true := by
  have h : (opcodeRows.map (·.sel)).Pairwise fun a b => a.clash b = true := by decide +kernel
  exact List.pairwise_map.mp h

/-- Among rows no two of which a word can fit, a row that fits is the one found. -/
theorem find_of_mem_fits {rows : List Row} (hp : rows.Pairwise fun a b => a.sel.clash b.sel = true)
    {r : Row} (hr : r ∈ rows) {w : Word} (hw : r.sel.fits w = true) :
    rows.find? (·.sel.fits w) = some r := by
  induction rows with
  | nil => simp at hr
  | cons q rest ih =>
    obtain ⟨hq, hrest⟩ := List.pairwise_cons.mp hp
    rcases List.mem_cons.mp hr with rfl | hr
    · simp [hw]
    · have hn : q.sel.fits w = false := by
        have := Selector.not_fits_of_clash (hq r hr) w
        simpa [hw] using this
      simp [hn, ih hrest hr]

/-- A row of the table a word fits is the one the decoder finds. -/
theorem rowOf_of_fits {r : Row} (hr : r ∈ opcodeRows) {w : Word} (hw : r.sel.fits w = true) :
    rowOf w = some r :=
  find_of_mem_fits opcodeRows_clash hr hw

/-- What a decoded instruction came from. -/
theorem decode_some {p : Params} {w : Word} {i : Instr} (h : decode p w = some i) :
    is32 w = true ∧ ((∃ r ∈ opcodeRows, r.sel.fits w = true ∧ i = r.build w) ∨
      (rowOf w = none ∧ p.selectsBitmanip w = true ∧ i = .bitmanipGroup w)) := by
  unfold decode at h
  split at h
  · next h32 =>
    refine ⟨h32, ?_⟩
    split at h
    · next r hr =>
      refine .inl ⟨r, List.mem_of_find?_eq_some hr, ?_, by simpa using h.symm⟩
      simpa using List.find?_some hr
    · next hr =>
      split at h
      · next hb => exact .inr ⟨hr, hb, by simpa using h.symm⟩
      · simp at h
  · simp at h

end Sys2Proof
end

