-- ==== Sys2Proof/Laws/State.lean ====
section
/-!
SUPPORT. What each update of the state does to each field, so that no later proof unfolds an update.
-/

namespace Sys2Proof.Machine

/-! ### `pokeX` -/

@[simp] theorem pokeX_f (s : State) (r : Reg) (v : Word) : (s.pokeX r v).f = s.f := rfl
@[simp] theorem pokeX_pc (s : State) (r : Reg) (v : Word) : (s.pokeX r v).pc = s.pc := rfl
@[simp] theorem pokeX_status (s : State) (r : Reg) (v : Word) : (s.pokeX r v).status = s.status := rfl
@[simp] theorem pokeX_fault (s : State) (r : Reg) (v : Word) : (s.pokeX r v).fault = s.fault := rfl
@[simp] theorem pokeX_counter (s : State) (r : Reg) (v : Word) : (s.pokeX r v).counter = s.counter := rfl
@[simp] theorem pokeX_stack (s : State) (r : Reg) (v : Word) : (s.pokeX r v).stack = s.stack := rfl
@[simp] theorem pokeX_image (s : State) (r : Reg) (v : Word) : (s.pokeX r v).image = s.image := rfl
@[simp] theorem pokeX_slots (s : State) (r : Reg) (v : Word) : (s.pokeX r v).slots = s.slots := rfl
@[simp] theorem pokeX_hostMem (s : State) (r : Reg) (v : Word) : (s.pokeX r v).hostMem = s.hostMem := rfl
@[simp] theorem pokeX_hooks (s : State) (r : Reg) (v : Word) : (s.pokeX r v).hooks = s.hooks := rfl
@[simp] theorem pokeX_execEn (s : State) (r : Reg) (v : Word) : (s.pokeX r v).execEn = s.execEn := rfl
@[simp] theorem pokeX_echoEn (s : State) (r : Reg) (v : Word) : (s.pokeX r v).echoEn = s.echoEn := rfl
@[simp] theorem pokeX_echoCfg (s : State) (r : Reg) (v : Word) : (s.pokeX r v).echoCfg = s.echoCfg := rfl
@[simp] theorem pokeX_params (s : State) (r : Reg) (v : Word) : (s.pokeX r v).params = s.params := rfl
@[simp] theorem pokeX_draws (s : State) (r : Reg) (v : Word) : (s.pokeX r v).draws = s.draws := rfl

/-! ### `writeX` -/

@[simp] theorem writeX_f (s : State) (r : Reg) (v : Word) : (s.writeX r v).f = s.f := by
  unfold State.writeX; split <;> rfl
@[simp] theorem writeX_pc (s : State) (r : Reg) (v : Word) : (s.writeX r v).pc = s.pc := by
  unfold State.writeX; split <;> rfl
@[simp] theorem writeX_status (s : State) (r : Reg) (v : Word) : (s.writeX r v).status = s.status := by
  unfold State.writeX; split <;> rfl
@[simp] theorem writeX_fault (s : State) (r : Reg) (v : Word) : (s.writeX r v).fault = s.fault := by
  unfold State.writeX; split <;> rfl
@[simp] theorem writeX_counter (s : State) (r : Reg) (v : Word) : (s.writeX r v).counter = s.counter := by
  unfold State.writeX; split <;> rfl
@[simp] theorem writeX_stack (s : State) (r : Reg) (v : Word) : (s.writeX r v).stack = s.stack := by
  unfold State.writeX; split <;> rfl
@[simp] theorem writeX_image (s : State) (r : Reg) (v : Word) : (s.writeX r v).image = s.image := by
  unfold State.writeX; split <;> rfl
@[simp] theorem writeX_slots (s : State) (r : Reg) (v : Word) : (s.writeX r v).slots = s.slots := by
  unfold State.writeX; split <;> rfl
@[simp] theorem writeX_hostMem (s : State) (r : Reg) (v : Word) : (s.writeX r v).hostMem = s.hostMem := by
  unfold State.writeX; split <;> rfl
@[simp] theorem writeX_hooks (s : State) (r : Reg) (v : Word) : (s.writeX r v).hooks = s.hooks := by
  unfold State.writeX; split <;> rfl
@[simp] theorem writeX_execEn (s : State) (r : Reg) (v : Word) : (s.writeX r v).execEn = s.execEn := by
  unfold State.writeX; split <;> rfl
@[simp] theorem writeX_echoEn (s : State) (r : Reg) (v : Word) : (s.writeX r v).echoEn = s.echoEn := by
  unfold State.writeX; split <;> rfl
@[simp] theorem writeX_echoCfg (s : State) (r : Reg) (v : Word) : (s.writeX r v).echoCfg = s.echoCfg := by
  unfold State.writeX; split <;> rfl
@[simp] theorem writeX_params (s : State) (r : Reg) (v : Word) : (s.writeX r v).params = s.params := by
  unfold State.writeX; split <;> rfl
@[simp] theorem writeX_draws (s : State) (r : Reg) (v : Word) : (s.writeX r v).draws = s.draws := by
  unfold State.writeX; split <;> rfl

/-! ### `writeFD` -/

@[simp] theorem writeFD_x (s : State) (r : Reg) (v : DWord) : (s.writeFD r v).x = s.x := rfl
@[simp] theorem writeFD_pc (s : State) (r : Reg) (v : DWord) : (s.writeFD r v).pc = s.pc := rfl
@[simp] theorem writeFD_status (s : State) (r : Reg) (v : DWord) : (s.writeFD r v).status = s.status := rfl
@[simp] theorem writeFD_fault (s : State) (r : Reg) (v : DWord) : (s.writeFD r v).fault = s.fault := rfl
@[simp] theorem writeFD_counter (s : State) (r : Reg) (v : DWord) : (s.writeFD r v).counter = s.counter := rfl
@[simp] theorem writeFD_stack (s : State) (r : Reg) (v : DWord) : (s.writeFD r v).stack = s.stack := rfl
@[simp] theorem writeFD_image (s : State) (r : Reg) (v : DWord) : (s.writeFD r v).image = s.image := rfl
@[simp] theorem writeFD_slots (s : State) (r : Reg) (v : DWord) : (s.writeFD r v).slots = s.slots := rfl
@[simp] theorem writeFD_hostMem (s : State) (r : Reg) (v : DWord) : (s.writeFD r v).hostMem = s.hostMem := rfl
@[simp] theorem writeFD_hooks (s : State) (r : Reg) (v : DWord) : (s.writeFD r v).hooks = s.hooks := rfl
@[simp] theorem writeFD_execEn (s : State) (r : Reg) (v : DWord) : (s.writeFD r v).execEn = s.execEn := rfl
@[simp] theorem writeFD_echoEn (s : State) (r : Reg) (v : DWord) : (s.writeFD r v).echoEn = s.echoEn := rfl
@[simp] theorem writeFD_echoCfg (s : State) (r : Reg) (v : DWord) : (s.writeFD r v).echoCfg = s.echoCfg := rfl
@[simp] theorem writeFD_params (s : State) (r : Reg) (v : DWord) : (s.writeFD r v).params = s.params := rfl
@[simp] theorem writeFD_draws (s : State) (r : Reg) (v : DWord) : (s.writeFD r v).draws = s.draws := rfl

/-! ### `writeFS` -/

@[simp] theorem writeFS_x (s : State) (r : Reg) (v : Word) : (s.writeFS r v).x = s.x := rfl
@[simp] theorem writeFS_pc (s : State) (r : Reg) (v : Word) : (s.writeFS r v).pc = s.pc := rfl
@[simp] theorem writeFS_status (s : State) (r : Reg) (v : Word) : (s.writeFS r v).status = s.status := rfl
@[simp] theorem writeFS_fault (s : State) (r : Reg) (v : Word) : (s.writeFS r v).fault = s.fault := rfl
@[simp] theorem writeFS_counter (s : State) (r : Reg) (v : Word) : (s.writeFS r v).counter = s.counter := rfl
@[simp] theorem writeFS_stack (s : State) (r : Reg) (v : Word) : (s.writeFS r v).stack = s.stack := rfl
@[simp] theorem writeFS_image (s : State) (r : Reg) (v : Word) : (s.writeFS r v).image = s.image := rfl
@[simp] theorem writeFS_slots (s : State) (r : Reg) (v : Word) : (s.writeFS r v).slots = s.slots := rfl
@[simp] theorem writeFS_hostMem (s : State) (r : Reg) (v : Word) : (s.writeFS r v).hostMem = s.hostMem := rfl
@[simp] theorem writeFS_hooks (s : State) (r : Reg) (v : Word) : (s.writeFS r v).hooks = s.hooks := rfl
@[simp] theorem writeFS_execEn (s : State) (r : Reg) (v : Word) : (s.writeFS r v).execEn = s.execEn := rfl
@[simp] theorem writeFS_echoEn (s : State) (r : Reg) (v : Word) : (s.writeFS r v).echoEn = s.echoEn := rfl
@[simp] theorem writeFS_echoCfg (s : State) (r : Reg) (v : Word) : (s.writeFS r v).echoCfg = s.echoCfg := rfl
@[simp] theorem writeFS_params (s : State) (r : Reg) (v : Word) : (s.writeFS r v).params = s.params := rfl
@[simp] theorem writeFS_draws (s : State) (r : Reg) (v : Word) : (s.writeFS r v).draws = s.draws := rfl

/-! ### `setStatus` -/

@[simp] theorem setStatus_x (s : State) (b : StatusBit) : (s.setStatus b).x = s.x := rfl
@[simp] theorem setStatus_f (s : State) (b : StatusBit) : (s.setStatus b).f = s.f := rfl
@[simp] theorem setStatus_pc (s : State) (b : StatusBit) : (s.setStatus b).pc = s.pc := rfl
@[simp] theorem setStatus_status (s : State) (b : StatusBit) : (s.setStatus b).status = s.status ||| b.mask := rfl
@[simp] theorem setStatus_fault (s : State) (b : StatusBit) : (s.setStatus b).fault = s.fault := rfl
@[simp] theorem setStatus_counter (s : State) (b : StatusBit) : (s.setStatus b).counter = s.counter := rfl
@[simp] theorem setStatus_stack (s : State) (b : StatusBit) : (s.setStatus b).stack = s.stack := rfl
@[simp] theorem setStatus_image (s : State) (b : StatusBit) : (s.setStatus b).image = s.image := rfl
@[simp] theorem setStatus_slots (s : State) (b : StatusBit) : (s.setStatus b).slots = s.slots := rfl
@[simp] theorem setStatus_hostMem (s : State) (b : StatusBit) : (s.setStatus b).hostMem = s.hostMem := rfl
@[simp] theorem setStatus_hooks (s : State) (b : StatusBit) : (s.setStatus b).hooks = s.hooks := rfl
@[simp] theorem setStatus_execEn (s : State) (b : StatusBit) : (s.setStatus b).execEn = s.execEn := rfl
@[simp] theorem setStatus_echoEn (s : State) (b : StatusBit) : (s.setStatus b).echoEn = s.echoEn := rfl
@[simp] theorem setStatus_echoCfg (s : State) (b : StatusBit) : (s.setStatus b).echoCfg = s.echoCfg := rfl
@[simp] theorem setStatus_params (s : State) (b : StatusBit) : (s.setStatus b).params = s.params := rfl
@[simp] theorem setStatus_draws (s : State) (b : StatusBit) : (s.setStatus b).draws = s.draws := rfl

/-! ### `countStep` -/

@[simp] theorem countStep_x (s : State) : (s.countStep).x = s.x := rfl
@[simp] theorem countStep_f (s : State) : (s.countStep).f = s.f := rfl
@[simp] theorem countStep_pc (s : State) : (s.countStep).pc = s.pc := rfl
@[simp] theorem countStep_status (s : State) : (s.countStep).status = s.status := rfl
@[simp] theorem countStep_fault (s : State) : (s.countStep).fault = s.fault := rfl
@[simp] theorem countStep_counter (s : State) : (s.countStep).counter = s.counter + 1 := rfl
@[simp] theorem countStep_stack (s : State) : (s.countStep).stack = s.stack := rfl
@[simp] theorem countStep_image (s : State) : (s.countStep).image = s.image := rfl
@[simp] theorem countStep_slots (s : State) : (s.countStep).slots = s.slots := rfl
@[simp] theorem countStep_hostMem (s : State) : (s.countStep).hostMem = s.hostMem := rfl
@[simp] theorem countStep_hooks (s : State) : (s.countStep).hooks = s.hooks := rfl
@[simp] theorem countStep_execEn (s : State) : (s.countStep).execEn = s.execEn := rfl
@[simp] theorem countStep_echoEn (s : State) : (s.countStep).echoEn = s.echoEn := rfl
@[simp] theorem countStep_echoCfg (s : State) : (s.countStep).echoCfg = s.echoCfg := rfl
@[simp] theorem countStep_params (s : State) : (s.countStep).params = s.params := rfl
@[simp] theorem countStep_draws (s : State) : (s.countStep).draws = s.draws := rfl

/-! ### `advancePc` -/

@[simp] theorem advancePc_x (s : State) : (s.advancePc).x = s.x := rfl
@[simp] theorem advancePc_f (s : State) : (s.advancePc).f = s.f := rfl
@[simp] theorem advancePc_pc (s : State) : (s.advancePc).pc = s.pc + 4 := rfl
@[simp] theorem advancePc_status (s : State) : (s.advancePc).status = s.status := rfl
@[simp] theorem advancePc_fault (s : State) : (s.advancePc).fault = s.fault := rfl
@[simp] theorem advancePc_counter (s : State) : (s.advancePc).counter = s.counter := rfl
@[simp] theorem advancePc_stack (s : State) : (s.advancePc).stack = s.stack := rfl
@[simp] theorem advancePc_image (s : State) : (s.advancePc).image = s.image := rfl
@[simp] theorem advancePc_slots (s : State) : (s.advancePc).slots = s.slots := rfl
@[simp] theorem advancePc_hostMem (s : State) : (s.advancePc).hostMem = s.hostMem := rfl
@[simp] theorem advancePc_hooks (s : State) : (s.advancePc).hooks = s.hooks := rfl
@[simp] theorem advancePc_execEn (s : State) : (s.advancePc).execEn = s.execEn := rfl
@[simp] theorem advancePc_echoEn (s : State) : (s.advancePc).echoEn = s.echoEn := rfl
@[simp] theorem advancePc_echoCfg (s : State) : (s.advancePc).echoCfg = s.echoCfg := rfl
@[simp] theorem advancePc_params (s : State) : (s.advancePc).params = s.params := rfl
@[simp] theorem advancePc_draws (s : State) : (s.advancePc).draws = s.draws := rfl

/-! ### `retire` -/

@[simp] theorem retire_x (s : State) : (s.retire).x = s.x := rfl
@[simp] theorem retire_f (s : State) : (s.retire).f = s.f := rfl
@[simp] theorem retire_pc (s : State) : (s.retire).pc = s.pc + 4 := rfl
@[simp] theorem retire_status (s : State) : (s.retire).status = s.status := rfl
@[simp] theorem retire_fault (s : State) : (s.retire).fault = s.fault := rfl
@[simp] theorem retire_counter (s : State) : (s.retire).counter = s.counter + 1 := rfl
@[simp] theorem retire_stack (s : State) : (s.retire).stack = s.stack := rfl
@[simp] theorem retire_image (s : State) : (s.retire).image = s.image := rfl
@[simp] theorem retire_slots (s : State) : (s.retire).slots = s.slots := rfl
@[simp] theorem retire_hostMem (s : State) : (s.retire).hostMem = s.hostMem := rfl
@[simp] theorem retire_hooks (s : State) : (s.retire).hooks = s.hooks := rfl
@[simp] theorem retire_execEn (s : State) : (s.retire).execEn = s.execEn := rfl
@[simp] theorem retire_echoEn (s : State) : (s.retire).echoEn = s.echoEn := rfl
@[simp] theorem retire_echoCfg (s : State) : (s.retire).echoCfg = s.echoCfg := rfl
@[simp] theorem retire_params (s : State) : (s.retire).params = s.params := rfl
@[simp] theorem retire_draws (s : State) : (s.retire).draws = s.draws := rfl

/-! ### `transfer` -/

@[simp] theorem transfer_x (s : State) (t : Word) : (s.transfer t).x = s.x := by
  unfold State.transfer; split <;> rfl
@[simp] theorem transfer_f (s : State) (t : Word) : (s.transfer t).f = s.f := by
  unfold State.transfer; split <;> rfl
@[simp] theorem transfer_pc (s : State) (t : Word) : (s.transfer t).pc = t := by
  unfold State.transfer; split <;> rfl
@[simp] theorem transfer_status (s : State) (t : Word) : (s.transfer t).status = s.status ||| (if t = s.params.nativePc then StatusBit.mask .native else 0) := by
  unfold State.transfer; split <;> simp [State.setStatus, State.countStep]
@[simp] theorem transfer_fault (s : State) (t : Word) : (s.transfer t).fault = s.fault := by
  unfold State.transfer; split <;> rfl
@[simp] theorem transfer_counter (s : State) (t : Word) : (s.transfer t).counter = s.counter + 1 := by
  unfold State.transfer; split <;> rfl
@[simp] theorem transfer_stack (s : State) (t : Word) : (s.transfer t).stack = s.stack := by
  unfold State.transfer; split <;> rfl
@[simp] theorem transfer_image (s : State) (t : Word) : (s.transfer t).image = s.image := by
  unfold State.transfer; split <;> rfl
@[simp] theorem transfer_slots (s : State) (t : Word) : (s.transfer t).slots = s.slots := by
  unfold State.transfer; split <;> rfl
@[simp] theorem transfer_hostMem (s : State) (t : Word) : (s.transfer t).hostMem = s.hostMem := by
  unfold State.transfer; split <;> rfl
@[simp] theorem transfer_hooks (s : State) (t : Word) : (s.transfer t).hooks = s.hooks := by
  unfold State.transfer; split <;> rfl
@[simp] theorem transfer_execEn (s : State) (t : Word) : (s.transfer t).execEn = s.execEn := by
  unfold State.transfer; split <;> rfl
@[simp] theorem transfer_echoEn (s : State) (t : Word) : (s.transfer t).echoEn = s.echoEn := by
  unfold State.transfer; split <;> rfl
@[simp] theorem transfer_echoCfg (s : State) (t : Word) : (s.transfer t).echoCfg = s.echoCfg := by
  unfold State.transfer; split <;> rfl
@[simp] theorem transfer_params (s : State) (t : Word) : (s.transfer t).params = s.params := by
  unfold State.transfer; split <;> rfl
@[simp] theorem transfer_draws (s : State) (t : Word) : (s.transfer t).draws = s.draws := by
  unfold State.transfer; split <;> rfl

/-! ### `raiseFault` -/

@[simp] theorem raiseFault_x (s : State) (c : FaultCause) : (s.raiseFault c).x = s.x := rfl
@[simp] theorem raiseFault_f (s : State) (c : FaultCause) : (s.raiseFault c).f = s.f := rfl
@[simp] theorem raiseFault_pc (s : State) (c : FaultCause) : (s.raiseFault c).pc = s.pc := rfl
@[simp] theorem raiseFault_status (s : State) (c : FaultCause) : (s.raiseFault c).status = StatusBit.mask .native := rfl
@[simp] theorem raiseFault_fault (s : State) (c : FaultCause) : (s.raiseFault c).fault = true := rfl
@[simp] theorem raiseFault_counter (s : State) (c : FaultCause) : (s.raiseFault c).counter = s.counter := rfl
@[simp] theorem raiseFault_stack (s : State) (c : FaultCause) : (s.raiseFault c).stack = s.stack := rfl
@[simp] theorem raiseFault_image (s : State) (c : FaultCause) : (s.raiseFault c).image = s.image := rfl
@[simp] theorem raiseFault_slots (s : State) (c : FaultCause) : (s.raiseFault c).slots = s.slots := rfl
@[simp] theorem raiseFault_hostMem (s : State) (c : FaultCause) : (s.raiseFault c).hostMem = s.hostMem := rfl
@[simp] theorem raiseFault_hooks (s : State) (c : FaultCause) : (s.raiseFault c).hooks = s.hooks := rfl
@[simp] theorem raiseFault_execEn (s : State) (c : FaultCause) : (s.raiseFault c).execEn = s.execEn := rfl
@[simp] theorem raiseFault_echoEn (s : State) (c : FaultCause) : (s.raiseFault c).echoEn = s.echoEn := rfl
@[simp] theorem raiseFault_echoCfg (s : State) (c : FaultCause) : (s.raiseFault c).echoCfg = s.echoCfg := rfl
@[simp] theorem raiseFault_params (s : State) (c : FaultCause) : (s.raiseFault c).params = s.params := rfl
@[simp] theorem raiseFault_draws (s : State) (c : FaultCause) : (s.raiseFault c).draws = s.draws := rfl

/-! ### `draw` -/

@[simp] theorem draw_x (s : State) : (s.draw).x = s.x := rfl
@[simp] theorem draw_f (s : State) : (s.draw).f = s.f := rfl
@[simp] theorem draw_pc (s : State) : (s.draw).pc = s.pc := rfl
@[simp] theorem draw_status (s : State) : (s.draw).status = s.status := rfl
@[simp] theorem draw_fault (s : State) : (s.draw).fault = s.fault := rfl
@[simp] theorem draw_counter (s : State) : (s.draw).counter = s.counter := rfl
@[simp] theorem draw_stack (s : State) : (s.draw).stack = s.stack := rfl
@[simp] theorem draw_image (s : State) : (s.draw).image = s.image := rfl
@[simp] theorem draw_slots (s : State) : (s.draw).slots = s.slots := rfl
@[simp] theorem draw_hostMem (s : State) : (s.draw).hostMem = s.hostMem := rfl
@[simp] theorem draw_hooks (s : State) : (s.draw).hooks = s.hooks := rfl
@[simp] theorem draw_execEn (s : State) : (s.draw).execEn = s.execEn := rfl
@[simp] theorem draw_echoEn (s : State) : (s.draw).echoEn = s.echoEn := rfl
@[simp] theorem draw_echoCfg (s : State) : (s.draw).echoCfg = s.echoCfg := rfl
@[simp] theorem draw_params (s : State) : (s.draw).params = s.params := rfl
@[simp] theorem draw_draws (s : State) : (s.draw).draws = s.draws + 1 := rfl

/-! ### `clearStatus` -/

@[simp] theorem clearStatus_x (s : State) : (s.clearStatus).x = s.x := rfl
@[simp] theorem clearStatus_f (s : State) : (s.clearStatus).f = s.f := rfl
@[simp] theorem clearStatus_pc (s : State) : (s.clearStatus).pc = s.pc := rfl
@[simp] theorem clearStatus_status (s : State) : (s.clearStatus).status = 0 := rfl
@[simp] theorem clearStatus_fault (s : State) : (s.clearStatus).fault = s.fault := rfl
@[simp] theorem clearStatus_counter (s : State) : (s.clearStatus).counter = s.counter := rfl
@[simp] theorem clearStatus_stack (s : State) : (s.clearStatus).stack = s.stack := rfl
@[simp] theorem clearStatus_image (s : State) : (s.clearStatus).image = s.image := rfl
@[simp] theorem clearStatus_slots (s : State) : (s.clearStatus).slots = s.slots := rfl
@[simp] theorem clearStatus_hostMem (s : State) : (s.clearStatus).hostMem = s.hostMem := rfl
@[simp] theorem clearStatus_hooks (s : State) : (s.clearStatus).hooks = s.hooks := rfl
@[simp] theorem clearStatus_execEn (s : State) : (s.clearStatus).execEn = s.execEn := rfl
@[simp] theorem clearStatus_echoEn (s : State) : (s.clearStatus).echoEn = s.echoEn := rfl
@[simp] theorem clearStatus_echoCfg (s : State) : (s.clearStatus).echoCfg = s.echoCfg := rfl
@[simp] theorem clearStatus_params (s : State) : (s.clearStatus).params = s.params := rfl
@[simp] theorem clearStatus_draws (s : State) : (s.clearStatus).draws = s.draws := rfl

/-! ### `stuckStep` -/

@[simp] theorem stuckStep_x (s : State) : (s.stuckStep).x = s.x := rfl
@[simp] theorem stuckStep_f (s : State) : (s.stuckStep).f = s.f := rfl
@[simp] theorem stuckStep_pc (s : State) : (s.stuckStep).pc = s.pc := rfl
@[simp] theorem stuckStep_status (s : State) : (s.stuckStep).status = StatusBit.mask .native := rfl
@[simp] theorem stuckStep_fault (s : State) : (s.stuckStep).fault = s.fault := rfl
@[simp] theorem stuckStep_counter (s : State) : (s.stuckStep).counter = s.counter := rfl
@[simp] theorem stuckStep_stack (s : State) : (s.stuckStep).stack = s.stack := rfl
@[simp] theorem stuckStep_image (s : State) : (s.stuckStep).image = s.image := rfl
@[simp] theorem stuckStep_slots (s : State) : (s.stuckStep).slots = s.slots := rfl
@[simp] theorem stuckStep_hostMem (s : State) : (s.stuckStep).hostMem = s.hostMem := rfl
@[simp] theorem stuckStep_hooks (s : State) : (s.stuckStep).hooks = s.hooks := rfl
@[simp] theorem stuckStep_execEn (s : State) : (s.stuckStep).execEn = s.execEn := rfl
@[simp] theorem stuckStep_echoEn (s : State) : (s.stuckStep).echoEn = s.echoEn := rfl
@[simp] theorem stuckStep_echoCfg (s : State) : (s.stuckStep).echoCfg = s.echoCfg := rfl
@[simp] theorem stuckStep_params (s : State) : (s.stuckStep).params = s.params := rfl
@[simp] theorem stuckStep_draws (s : State) : (s.stuckStep).draws = s.draws := rfl

/-! ### `setPc` -/

@[simp] theorem setPc_x (s : State) (t : Word) : (s.setPc t).x = s.x := rfl
@[simp] theorem setPc_f (s : State) (t : Word) : (s.setPc t).f = s.f := rfl
@[simp] theorem setPc_pc (s : State) (t : Word) : (s.setPc t).pc = t := rfl
@[simp] theorem setPc_status (s : State) (t : Word) : (s.setPc t).status = s.status := rfl
@[simp] theorem setPc_fault (s : State) (t : Word) : (s.setPc t).fault = s.fault := rfl
@[simp] theorem setPc_counter (s : State) (t : Word) : (s.setPc t).counter = s.counter := rfl
@[simp] theorem setPc_stack (s : State) (t : Word) : (s.setPc t).stack = s.stack := rfl
@[simp] theorem setPc_image (s : State) (t : Word) : (s.setPc t).image = s.image := rfl
@[simp] theorem setPc_slots (s : State) (t : Word) : (s.setPc t).slots = s.slots := rfl
@[simp] theorem setPc_hostMem (s : State) (t : Word) : (s.setPc t).hostMem = s.hostMem := rfl
@[simp] theorem setPc_hooks (s : State) (t : Word) : (s.setPc t).hooks = s.hooks := rfl
@[simp] theorem setPc_execEn (s : State) (t : Word) : (s.setPc t).execEn = s.execEn := rfl
@[simp] theorem setPc_echoEn (s : State) (t : Word) : (s.setPc t).echoEn = s.echoEn := rfl
@[simp] theorem setPc_echoCfg (s : State) (t : Word) : (s.setPc t).echoCfg = s.echoCfg := rfl
@[simp] theorem setPc_params (s : State) (t : Word) : (s.setPc t).params = s.params := rfl
@[simp] theorem setPc_draws (s : State) (t : Word) : (s.setPc t).draws = s.draws := rfl

/-! ### `setBank` -/

@[simp] theorem setBank_x (s : State) (b : Bank) (m : Memory) : (s.setBank b m).x = s.x := by cases b <;> rfl
@[simp] theorem setBank_f (s : State) (b : Bank) (m : Memory) : (s.setBank b m).f = s.f := by cases b <;> rfl
@[simp] theorem setBank_pc (s : State) (b : Bank) (m : Memory) : (s.setBank b m).pc = s.pc := by cases b <;> rfl
@[simp] theorem setBank_status (s : State) (b : Bank) (m : Memory) : (s.setBank b m).status = s.status := by cases b <;> rfl
@[simp] theorem setBank_fault (s : State) (b : Bank) (m : Memory) : (s.setBank b m).fault = s.fault := by cases b <;> rfl
@[simp] theorem setBank_counter (s : State) (b : Bank) (m : Memory) : (s.setBank b m).counter = s.counter := by cases b <;> rfl
@[simp] theorem setBank_slots (s : State) (b : Bank) (m : Memory) : (s.setBank b m).slots = s.slots := by cases b <;> rfl
@[simp] theorem setBank_hooks (s : State) (b : Bank) (m : Memory) : (s.setBank b m).hooks = s.hooks := by cases b <;> rfl
@[simp] theorem setBank_execEn (s : State) (b : Bank) (m : Memory) : (s.setBank b m).execEn = s.execEn := by cases b <;> rfl
@[simp] theorem setBank_echoEn (s : State) (b : Bank) (m : Memory) : (s.setBank b m).echoEn = s.echoEn := by cases b <;> rfl
@[simp] theorem setBank_echoCfg (s : State) (b : Bank) (m : Memory) : (s.setBank b m).echoCfg = s.echoCfg := by cases b <;> rfl
@[simp] theorem setBank_params (s : State) (b : Bank) (m : Memory) : (s.setBank b m).params = s.params := by cases b <;> rfl
@[simp] theorem setBank_draws (s : State) (b : Bank) (m : Memory) : (s.setBank b m).draws = s.draws := by cases b <;> rfl

/-! ### `storeAt` -/

@[simp] theorem storeAt_x (s : State) (p : Place) (bs : List Byte) : (s.storeAt p bs).x = s.x := by
  obtain ⟨b, i⟩ := p; cases b <;> rfl
@[simp] theorem storeAt_f (s : State) (p : Place) (bs : List Byte) : (s.storeAt p bs).f = s.f := by
  obtain ⟨b, i⟩ := p; cases b <;> rfl
@[simp] theorem storeAt_pc (s : State) (p : Place) (bs : List Byte) : (s.storeAt p bs).pc = s.pc := by
  obtain ⟨b, i⟩ := p; cases b <;> rfl
@[simp] theorem storeAt_status (s : State) (p : Place) (bs : List Byte) : (s.storeAt p bs).status = s.status := by
  obtain ⟨b, i⟩ := p; cases b <;> rfl
@[simp] theorem storeAt_fault (s : State) (p : Place) (bs : List Byte) : (s.storeAt p bs).fault = s.fault := by
  obtain ⟨b, i⟩ := p; cases b <;> rfl
@[simp] theorem storeAt_counter (s : State) (p : Place) (bs : List Byte) : (s.storeAt p bs).counter = s.counter := by
  obtain ⟨b, i⟩ := p; cases b <;> rfl
@[simp] theorem storeAt_slots (s : State) (p : Place) (bs : List Byte) : (s.storeAt p bs).slots = s.slots := by
  obtain ⟨b, i⟩ := p; cases b <;> rfl
@[simp] theorem storeAt_hooks (s : State) (p : Place) (bs : List Byte) : (s.storeAt p bs).hooks = s.hooks := by
  obtain ⟨b, i⟩ := p; cases b <;> rfl
@[simp] theorem storeAt_execEn (s : State) (p : Place) (bs : List Byte) : (s.storeAt p bs).execEn = s.execEn := by
  obtain ⟨b, i⟩ := p; cases b <;> rfl
@[simp] theorem storeAt_echoEn (s : State) (p : Place) (bs : List Byte) : (s.storeAt p bs).echoEn = s.echoEn := by
  obtain ⟨b, i⟩ := p; cases b <;> rfl
@[simp] theorem storeAt_echoCfg (s : State) (p : Place) (bs : List Byte) : (s.storeAt p bs).echoCfg = s.echoCfg := by
  obtain ⟨b, i⟩ := p; cases b <;> rfl
@[simp] theorem storeAt_params (s : State) (p : Place) (bs : List Byte) : (s.storeAt p bs).params = s.params := by
  obtain ⟨b, i⟩ := p; cases b <;> rfl
@[simp] theorem storeAt_draws (s : State) (p : Place) (bs : List Byte) : (s.storeAt p bs).draws = s.draws := by
  obtain ⟨b, i⟩ := p; cases b <;> rfl

/-! ### `writeResult` -/

@[simp] theorem writeResult_x (s : State) (r : Reg) (o : Option Word) : (s.writeResult r o).x = s.x := by
  cases o <;> rfl
@[simp] theorem writeResult_pc (s : State) (r : Reg) (o : Option Word) : (s.writeResult r o).pc = s.pc := by
  cases o <;> rfl
@[simp] theorem writeResult_status (s : State) (r : Reg) (o : Option Word) : (s.writeResult r o).status = s.status := by
  cases o <;> rfl
@[simp] theorem writeResult_fault (s : State) (r : Reg) (o : Option Word) : (s.writeResult r o).fault = s.fault := by
  cases o <;> rfl
@[simp] theorem writeResult_counter (s : State) (r : Reg) (o : Option Word) : (s.writeResult r o).counter = s.counter := by
  cases o <;> rfl
@[simp] theorem writeResult_stack (s : State) (r : Reg) (o : Option Word) : (s.writeResult r o).stack = s.stack := by
  cases o <;> rfl
@[simp] theorem writeResult_image (s : State) (r : Reg) (o : Option Word) : (s.writeResult r o).image = s.image := by
  cases o <;> rfl
@[simp] theorem writeResult_slots (s : State) (r : Reg) (o : Option Word) : (s.writeResult r o).slots = s.slots := by
  cases o <;> rfl
@[simp] theorem writeResult_hostMem (s : State) (r : Reg) (o : Option Word) : (s.writeResult r o).hostMem = s.hostMem := by
  cases o <;> rfl
@[simp] theorem writeResult_hooks (s : State) (r : Reg) (o : Option Word) : (s.writeResult r o).hooks = s.hooks := by
  cases o <;> rfl
@[simp] theorem writeResult_execEn (s : State) (r : Reg) (o : Option Word) : (s.writeResult r o).execEn = s.execEn := by
  cases o <;> rfl
@[simp] theorem writeResult_echoEn (s : State) (r : Reg) (o : Option Word) : (s.writeResult r o).echoEn = s.echoEn := by
  cases o <;> rfl
@[simp] theorem writeResult_echoCfg (s : State) (r : Reg) (o : Option Word) : (s.writeResult r o).echoCfg = s.echoCfg := by
  cases o <;> rfl
@[simp] theorem writeResult_params (s : State) (r : Reg) (o : Option Word) : (s.writeResult r o).params = s.params := by
  cases o <;> rfl

/-! ### `branch` -/

@[simp] theorem branch_x (s : State) (c : Bool) (off : BitVec 13) : (s.branch c off).x = s.x := by
  cases c <;> simp [State.branch]
@[simp] theorem branch_f (s : State) (c : Bool) (off : BitVec 13) : (s.branch c off).f = s.f := by
  cases c <;> simp [State.branch]
@[simp] theorem branch_pc (s : State) (c : Bool) (off : BitVec 13) : (s.branch c off).pc = if c then s.branchTarget off else s.pc + 4 := by
  cases c <;> simp [State.branch]
@[simp] theorem branch_fault (s : State) (c : Bool) (off : BitVec 13) : (s.branch c off).fault = s.fault := by
  cases c <;> simp [State.branch]
@[simp] theorem branch_counter (s : State) (c : Bool) (off : BitVec 13) : (s.branch c off).counter = s.counter + 1 := by
  cases c <;> simp [State.branch]
@[simp] theorem branch_stack (s : State) (c : Bool) (off : BitVec 13) : (s.branch c off).stack = s.stack := by
  cases c <;> simp [State.branch]
@[simp] theorem branch_image (s : State) (c : Bool) (off : BitVec 13) : (s.branch c off).image = s.image := by
  cases c <;> simp [State.branch]
@[simp] theorem branch_slots (s : State) (c : Bool) (off : BitVec 13) : (s.branch c off).slots = s.slots := by
  cases c <;> simp [State.branch]
@[simp] theorem branch_hostMem (s : State) (c : Bool) (off : BitVec 13) : (s.branch c off).hostMem = s.hostMem := by
  cases c <;> simp [State.branch]
@[simp] theorem branch_hooks (s : State) (c : Bool) (off : BitVec 13) : (s.branch c off).hooks = s.hooks := by
  cases c <;> simp [State.branch]
@[simp] theorem branch_execEn (s : State) (c : Bool) (off : BitVec 13) : (s.branch c off).execEn = s.execEn := by
  cases c <;> simp [State.branch]
@[simp] theorem branch_echoEn (s : State) (c : Bool) (off : BitVec 13) : (s.branch c off).echoEn = s.echoEn := by
  cases c <;> simp [State.branch]
@[simp] theorem branch_echoCfg (s : State) (c : Bool) (off : BitVec 13) : (s.branch c off).echoCfg = s.echoCfg := by
  cases c <;> simp [State.branch]
@[simp] theorem branch_params (s : State) (c : Bool) (off : BitVec 13) : (s.branch c off).params = s.params := by
  cases c <;> simp [State.branch]
@[simp] theorem branch_draws (s : State) (c : Bool) (off : BitVec 13) : (s.branch c off).draws = s.draws := by
  cases c <;> simp [State.branch]

/-! ### Registers and cells after an update -/

@[simp] theorem readX_pokeX_same (s : State) (r : Reg) (v : Word) : (s.pokeX r v).readX r = v := by
  simp [State.readX, State.pokeX]

theorem readX_pokeX_other (s : State) {r q : Reg} (v : Word) (h : q ≠ r) :
    (s.pokeX r v).readX q = s.readX q := by
  simp [State.readX, State.pokeX, Fin.val_inj, h.symm]

theorem readX_writeX_same (s : State) {r : Reg} (v : Word) (h : r ≠ 0) :
    (s.writeX r v).readX r = v := by
  simp [State.writeX, h]

theorem readX_writeX_other (s : State) {r q : Reg} (v : Word) (h : q ≠ r) :
    (s.writeX r v).readX q = s.readX q := by
  unfold State.writeX
  split
  · rfl
  · exact readX_pokeX_other s v h

@[simp] theorem writeX_zero (s : State) (v : Word) : s.writeX 0 v = s := rfl

/-- Register 0 keeps its value through every guarded write (R31). -/
@[simp] theorem readX_zero_writeX (s : State) (r : Reg) (v : Word) :
    (s.writeX r v).readX 0 = s.readX 0 := by
  by_cases h : r = 0
  · subst h; rfl
  · exact readX_writeX_other s v (Ne.symm h)

@[simp] theorem readFD_writeFD_same (s : State) (r : Reg) (v : DWord) :
    (s.writeFD r v).readFD r = v := by
  simp [State.readFD, State.writeFD]

theorem readFD_writeFD_other (s : State) {r q : Reg} (v : DWord) (h : q ≠ r) :
    (s.writeFD r v).readFD q = s.readFD q := by
  simp [State.readFD, State.writeFD, Fin.val_inj, h.symm]

theorem readFD_writeFS_other (s : State) {r q : Reg} (v : Word) (h : q ≠ r) :
    (s.writeFS r v).readFD q = s.readFD q :=
  readFD_writeFD_other s _ h

@[simp] theorem readFS_writeFS_same (s : State) (r : Reg) (v : Word) :
    (s.writeFS r v).readFS r = v := by
  simp only [State.readFS, State.writeFS, readFD_writeFD_same]
  exact BitVec.extractLsb'_append_eq_right

/-- A single-view write keeps bits 63..32 of the cell (R35). -/
@[simp] theorem high_writeFS_same (s : State) (r : Reg) (v : Word) :
    ((s.writeFS r v).readFD r).extractLsb' 32 32 = (s.readFD r).extractLsb' 32 32 := by
  simp only [State.writeFS, readFD_writeFD_same]
  exact BitVec.extractLsb'_append_eq_left

/-- A register read depends on the register file alone. -/
theorem readX_congr {s t : State} (h : t.x = s.x) (r : Reg) : t.readX r = s.readX r := by
  simp [State.readX, h]

theorem readFD_congr {s t : State} (h : t.f = s.f) (r : Reg) : t.readFD r = s.readFD r := by
  simp [State.readFD, h]

theorem readFS_congr {s t : State} (h : t.f = s.f) (r : Reg) : t.readFS r = s.readFS r := by
  simp [State.readFS, readFD_congr h]

@[simp] theorem readX_retire (s : State) (r : Reg) : s.retire.readX r = s.readX r := rfl
@[simp] theorem readFD_retire (s : State) (r : Reg) : s.retire.readFD r = s.readFD r := rfl
@[simp] theorem readFS_retire (s : State) (r : Reg) : s.retire.readFS r = s.readFS r := rfl
@[simp] theorem readX_setStatus (s : State) (b : StatusBit) (r : Reg) :
    (s.setStatus b).readX r = s.readX r := rfl
@[simp] theorem readX_transfer (s : State) (t : Word) (r : Reg) :
    (s.transfer t).readX r = s.readX r := readX_congr (transfer_x s t) r
@[simp] theorem readFD_transfer (s : State) (t : Word) (r : Reg) :
    (s.transfer t).readFD r = s.readFD r := readFD_congr (transfer_f s t) r

/-! ### Storage after an update that writes no byte -/

/-- A byte of storage depends on the three stores alone. -/
theorem readPlace_congr {s t : State} (h1 : t.stack = s.stack) (h2 : t.image.code = s.image.code)
    (h3 : t.hostMem = s.hostMem) (p : Place) : t.readPlace p = s.readPlace p := by
  obtain ⟨b, i⟩ := p
  cases b <;> simp [State.readPlace, State.bank, h1, h2, h3]

@[simp] theorem readPlace_retire (s : State) (p : Place) : s.retire.readPlace p = s.readPlace p :=
  readPlace_congr rfl rfl rfl p

@[simp] theorem readPlace_writeX (s : State) (r : Reg) (v : Word) (p : Place) :
    (s.writeX r v).readPlace p = s.readPlace p :=
  readPlace_congr (writeX_stack s r v) (by simp) (writeX_hostMem s r v) p

@[simp] theorem readPlace_writeFD (s : State) (r : Reg) (v : DWord) (p : Place) :
    (s.writeFD r v).readPlace p = s.readPlace p :=
  readPlace_congr rfl rfl rfl p

@[simp] theorem readPlace_writeFS (s : State) (r : Reg) (v : Word) (p : Place) :
    (s.writeFS r v).readPlace p = s.readPlace p :=
  readPlace_congr rfl rfl rfl p

@[simp] theorem readPlace_writeResult (s : State) (r : Reg) (o : Option Word) (p : Place) :
    (s.writeResult r o).readPlace p = s.readPlace p := by
  cases o <;> exact readPlace_congr rfl rfl rfl p

@[simp] theorem readPlace_transfer (s : State) (t : Word) (p : Place) :
    (s.transfer t).readPlace p = s.readPlace p :=
  readPlace_congr (by simp) (by simp) (by simp) p

@[simp] theorem readPlace_branch (s : State) (c : Bool) (off : BitVec 13) (p : Place) :
    (s.branch c off).readPlace p = s.readPlace p :=
  readPlace_congr (by simp) (by simp) (by simp) p

/-- The byte that `setBank` puts in place. -/
@[simp] theorem bank_setBank_same (s : State) (b : Bank) (m : Memory) : (s.setBank b m).bank b = m := by
  cases b <;> rfl

theorem bank_setBank_other (s : State) {b c : Bank} (m : Memory) (h : c ≠ b) :
    (s.setBank b m).bank c = s.bank c := by
  cases b <;> cases c <;> first | rfl | exact absurd rfl h

end Sys2Proof.Machine
end

