-- ==== Sys2Proof/Laws/Memory.lean ====
section
/-!
SUPPORT. The laws of a byte store: what a write does to each byte, that every operation keeps the
canonical form, and that bytes written from an index upward read back as the number they spell.
-/

namespace Sys2Proof.Machine

/-- A store all of whose entries lie above an index reads as unlisted there. -/
theorem Memory.read_of_all_above {m : Memory} {a : Nat} (h : ∀ c ∈ m, a < c.1) :
    Memory.read m a = unlistedByte := by
  induction m with
  | nil => rfl
  | cons c rest ih =>
    obtain ⟨k, v⟩ := c
    have hk : a < k := h (k, v) (by simp)
    simp only [Memory.read]
    rw [if_neg (by omega)]
    exact ih fun c hc => h c (by simp [hc])

theorem Memory.wf_cons {k : Nat} {v : Byte} {rest : Memory} :
    Memory.wf ((k, v) :: rest) = true ↔
      v ≠ unlistedByte ∧ (∀ c ∈ rest, k < c.1) ∧ Memory.wf rest = true := by
  simp [Memory.wf, and_assoc]

/-- What `Memory.list` puts in front. -/
theorem Memory.read_list {a b : Nat} {v : Byte} {rest : Memory} (h : Memory.read rest a = unlistedByte) :
    Memory.read (Memory.list a v rest) b = if b = a then v else Memory.read rest b := by
  unfold Memory.list
  split
  · next hv =>
    split
    · next hb => rw [hb, h, hv]
    · rfl
  · simp only [Memory.read, eq_comm]

/-- A write replaces one byte and leaves every other one. -/
theorem Memory.read_write {m : Memory} (hm : m.wf = true) (a b : Nat) (v : Byte) :
    (m.write a v).read b = if b = a then v else m.read b := by
  induction m with
  | nil =>
    rw [Memory.write, Memory.read_list rfl]
  | cons c rest ih =>
    obtain ⟨k, u⟩ := c
    obtain ⟨hu, hall, hrest⟩ := Memory.wf_cons.mp hm
    simp only [Memory.write]
    split
    · next hka =>
      simp only [Memory.read]
      rw [ih hrest]
      split <;> split <;> first | rfl | omega
    · split
      · next hka =>
        subst hka
        rw [Memory.read_list (Memory.read_of_all_above hall)]
        simp only [Memory.read]
        split
        · rfl
        · rw [if_neg (by omega)]
      · next h1 h2 =>
        rw [Memory.read_list]
        apply Memory.read_of_all_above
        intro c hc
        rcases List.mem_cons.mp hc with rfl | hc
        · simp only; omega
        · have := hall c hc; omega

/-- A write with no premise leaves the bytes it does not name. -/
theorem Memory.read_write_other (m : Memory) {a b : Nat} (v : Byte) (h : b ≠ a) :
    (m.write a v).read b = m.read b := by
  induction m with
  | nil =>
    simp only [Memory.write, Memory.list]
    split
    · rfl
    · simp only [Memory.read]; rw [if_neg (Ne.symm h)]
  | cons c rest ih =>
    obtain ⟨k, u⟩ := c
    simp only [Memory.write]
    split
    · simp only [Memory.read]; rw [ih]
    · split
      · next hka =>
        subst hka
        simp only [Memory.list, Memory.read]
        rw [if_neg (Ne.symm h)]
        split
        · rfl
        · simp only [Memory.read]; rw [if_neg (Ne.symm h)]
      · simp only [Memory.list]
        split
        · rfl
        · simp only [Memory.read]; rw [if_neg (Ne.symm h)]

theorem Memory.read_write_same {m : Memory} (hm : m.wf = true) (a : Nat) (v : Byte) :
    (m.write a v).read a = v := by simp [Memory.read_write hm]

/-- Every entry of a store after `Memory.list` was there or is the one put in front. -/
theorem Memory.mem_list {a : Nat} {v : Byte} {rest : Memory} {c : Host.Cell}
    (h : c ∈ Memory.list a v rest) : c = (a, v) ∨ c ∈ rest := by
  unfold Memory.list at h
  split at h
  · exact .inr h
  · exact List.mem_cons.mp h

/-- Every entry of a store after a write was there or is the byte written. -/
theorem Memory.mem_write {m : Memory} {a : Nat} {v : Byte} {c : Host.Cell} (h : c ∈ m.write a v) :
    c = (a, v) ∨ c ∈ m := by
  induction m with
  | nil => exact Memory.mem_list h
  | cons d rest ih =>
    obtain ⟨k, u⟩ := d
    simp only [Memory.write] at h
    split at h
    · rcases List.mem_cons.mp h with rfl | h
      · exact .inr (by simp)
      · exact (ih h).imp id (by simp +contextual)
    · split at h
      · exact (Memory.mem_list h).imp id (by simp +contextual)
      · exact Memory.mem_list h

theorem Memory.wf_list {a : Nat} {v : Byte} {rest : Memory} (hr : Memory.wf rest = true)
    (h : ∀ c ∈ rest, a < c.1) : Memory.wf (Memory.list a v rest) = true := by
  unfold Memory.list
  split
  · exact hr
  · next hv => exact Memory.wf_cons.mpr ⟨hv, h, hr⟩

/-- A write keeps the canonical form. -/
theorem Memory.wf_write {m : Memory} (hm : m.wf = true) (a : Nat) (v : Byte) :
    (m.write a v).wf = true := by
  induction m with
  | nil => exact Memory.wf_list rfl (by simp)
  | cons c rest ih =>
    obtain ⟨k, u⟩ := c
    obtain ⟨hu, hall, hrest⟩ := Memory.wf_cons.mp hm
    simp only [Memory.write]
    split
    · next hka =>
      refine Memory.wf_cons.mpr ⟨hu, ?_, ih hrest⟩
      intro c hc
      rcases Memory.mem_write hc with rfl | hc
      · exact hka
      · exact hall c hc
    · split
      · next hka => exact Memory.wf_list hrest (hka ▸ hall)
      · refine Memory.wf_list hm fun c hc => ?_
        rcases List.mem_cons.mp hc with rfl | hc
        · simp only; omega
        · have := hall c hc; omega

/-- Consecutive writes keep the canonical form. -/
theorem Memory.wf_writeBytes {m : Memory} (hm : m.wf = true) (a : Nat) (bs : List Byte) :
    (m.writeBytes a bs).wf = true := by
  induction bs generalizing m a with
  | nil => exact hm
  | cons v vs ih => exact ih (Memory.wf_write hm a v) (a + 1)

theorem Memory.wf_ofBytes (a : Nat) (bs : List Byte) : (Memory.ofBytes a bs).wf = true :=
  Memory.wf_writeBytes rfl a bs

/-- Every entry after consecutive writes was there or lies in the written range. -/
theorem Memory.mem_writeBytes {m : Memory} {a : Nat} {bs : List Byte} {c : Host.Cell}
    (h : c ∈ m.writeBytes a bs) : c ∈ m ∨ (a ≤ c.1 ∧ c.1 < a + bs.length) := by
  induction bs generalizing m a with
  | nil => exact .inl h
  | cons v vs ih =>
    rcases ih h with h | h
    · rcases Memory.mem_write h with rfl | h
      · exact .inr (by simp)
      · exact .inl h
    · exact .inr (by simp; omega)

/-- Writes inside a bound keep the entries inside it. -/
theorem Memory.below_writeBytes {m : Memory} {a n : Nat} {bs : List Byte}
    (hm : m.all (fun c => c.1 < n) = true) (h : a + bs.length ≤ n) :
    (m.writeBytes a bs).all (fun c => c.1 < n) = true := by
  simp only [List.all_eq_true, decide_eq_true_eq] at hm ⊢
  intro c hc
  rcases Memory.mem_writeBytes hc with hc | hc
  · exact hm c hc
  · omega

/-- Consecutive writes leave every byte outside their range. -/
theorem Memory.read_writeBytes_other (m : Memory) {a b : Nat} (bs : List Byte)
    (h : ¬(a ≤ b ∧ b < a + bs.length)) : (m.writeBytes a bs).read b = m.read b := by
  induction bs generalizing m a with
  | nil => rfl
  | cons v vs ih =>
    simp only [List.length_cons] at h
    rw [Memory.writeBytes, ih (m.write a v) (by omega), Memory.read_write_other m v (by omega)]

/-- Consecutive writes put the `i`-th byte of the list at the `i`-th index. -/
theorem Memory.read_writeBytes_at {m : Memory} (hm : m.wf = true) (a : Nat) (bs : List Byte) (i : Nat)
    (hi : i < bs.length) : (m.writeBytes a bs).read (a + i) = bs[i] := by
  induction bs generalizing m a i with
  | nil => simp at hi
  | cons v vs ih =>
    cases i with
    | zero =>
      rw [Memory.writeBytes, Memory.read_writeBytes_other _ _ (by omega)]
      simpa using Memory.read_write_same hm a v
    | succ i =>
      have := ih (Memory.wf_write hm a v) (a + 1) i (by simpa using hi)
      rw [Memory.writeBytes]
      simpa [Nat.add_assoc, Nat.add_comm 1 i] using this

/-- A little-endian read of bytes that agree with a list is the number the list spells. -/
theorem Memory.readLE_congr {m m' : Memory} (a : Nat) (n : Nat)
    (h : ∀ i < n, m.read (a + i) = m'.read (a + i)) : m.readLE a n = m'.readLE a n := by
  induction n generalizing a with
  | zero => rfl
  | succ n ih =>
    have h0 := h 0 (by omega)
    simp only [Nat.add_zero] at h0
    rw [Memory.readLE, Memory.readLE, h0, ih (a + 1) fun i hi => by
      have := h (i + 1) (by omega)
      simpa [Nat.add_assoc, Nat.add_comm 1 i] using this]

theorem Memory.readLE_lt (m : Memory) (a n : Nat) : m.readLE a n < 2 ^ (8 * n) := by
  induction n generalizing a with
  | zero => simp [Memory.readLE]
  | succ n ih =>
    have h1 := ih (a + 1)
    have h2 := (m.read a).isLt
    have h3 : 2 ^ (8 * (n + 1)) = 256 * 2 ^ (8 * n) := by rw [Nat.mul_add, Nat.pow_add]; omega
    rw [Memory.readLE]
    omega

@[simp] theorem leBytes_length (n : Nat) (v : BitVec (8 * n)) : (leBytes n v).length = n := by
  simp [leBytes]

theorem leBytes_getElem (n : Nat) (v : BitVec (8 * n)) (i : Nat) (h : i < (leBytes n v).length) :
    (leBytes n v)[i] = v.extractLsb' (8 * i) 8 := by
  simp [leBytes]

/-- Bytes that are the bytes `k` upward of a number read as that number without its low `k` bytes. -/
theorem Memory.readLE_of_bytes {m : Memory} {a k n : Nat} (v : Nat) (hv : v < 2 ^ (8 * (k + n)))
    (h : ∀ i < n, (m.read (a + i)).toNat = v / 2 ^ (8 * (k + i)) % 256) :
    m.readLE a n = v / 2 ^ (8 * k) := by
  induction n generalizing a k with
  | zero =>
    rw [Memory.readLE, Nat.div_eq_of_lt (by simpa using hv)]
  | succ n ih =>
    have h0 : (m.read a).toNat = v / 2 ^ (8 * k) % 256 := by simpa using h 0 (by omega)
    have hn := ih (a := a + 1) (k := k + 1) (by rwa [Nat.add_assoc, Nat.add_comm 1 n]) fun i hi => by
      have := h (i + 1) (by omega)
      rwa [show a + (i + 1) = a + 1 + i by omega, show k + (i + 1) = k + 1 + i by omega] at this
    have hd : v / 2 ^ (8 * (k + 1)) = v / 2 ^ (8 * k) / 256 := by
      rw [Nat.mul_add, Nat.pow_add, Nat.div_div_eq_div_mul]
    rw [Memory.readLE, h0, hn, hd]
    omega

/-- The bytes of a value, once written, read back as the value (R66, R67). -/
theorem Memory.readLE_writeBytes {m : Memory} (hm : m.wf = true) (a n : Nat) (v : BitVec (8 * n)) :
    BitVec.ofNat (8 * n) ((m.writeBytes a (leBytes n v)).readLE a n) = v := by
  have h := Memory.readLE_of_bytes (m := m.writeBytes a (leBytes n v)) (a := a) (k := 0) (n := n)
    v.toNat (by simpa using v.isLt) fun i hi => by
      rw [Memory.read_writeBytes_at hm a _ i (by simpa using hi), leBytes_getElem]
      simp [BitVec.extractLsb'_toNat, Nat.shiftRight_eq_div_pow]
  rw [h]
  simp

end Sys2Proof.Machine
end

