-- ==== Sys2Proof/Laws/Ops.lean ====
section
/-!
SUPPORT. What each shared operation over guest memory and hooks can do, said once: where an address
resolves, what an access answers, what a load, a store and a hook call leave.
-/

namespace Sys2Proof.Machine

/-! ### What never changes -/

namespace State.SameFrame

theorem refl (s : State) : s.SameFrame s := ⟨rfl, rfl, rfl, rfl, rfl, rfl, rfl⟩

theorem trans {s t u : State} (h : s.SameFrame t) (k : t.SameFrame u) : s.SameFrame u :=
  ⟨by rw [k.image, h.image], k.slots.trans h.slots, k.hooks.trans h.hooks, k.execEn.trans h.execEn,
    k.echoEn.trans h.echoEn, k.echoCfg.trans h.echoCfg, k.params.trans h.params⟩

theorem codeOrigin {s t : State} (h : s.SameFrame t) : t.image.codeOrigin = s.image.codeOrigin := by
  rw [h.image]

theorem size {s t : State} (h : s.SameFrame t) : t.image.size = s.image.size := by rw [h.image]

end State.SameFrame

theorem sameFrame_pokeX (s : State) (r : Reg) (v : Word) : s.SameFrame (s.pokeX r v) :=
  ⟨rfl, rfl, rfl, rfl, rfl, rfl, rfl⟩

theorem sameFrame_writeX (s : State) (r : Reg) (v : Word) : s.SameFrame (s.writeX r v) := by
  unfold State.writeX; split
  · exact .refl s
  · exact sameFrame_pokeX s r v

theorem sameFrame_writeFD (s : State) (r : Reg) (v : DWord) : s.SameFrame (s.writeFD r v) :=
  ⟨rfl, rfl, rfl, rfl, rfl, rfl, rfl⟩

theorem sameFrame_writeFS (s : State) (r : Reg) (v : Word) : s.SameFrame (s.writeFS r v) :=
  ⟨rfl, rfl, rfl, rfl, rfl, rfl, rfl⟩

theorem sameFrame_writeResult (s : State) (r : Reg) (o : Option Word) :
    s.SameFrame (s.writeResult r o) := by
  cases o <;> exact ⟨rfl, rfl, rfl, rfl, rfl, rfl, rfl⟩

theorem sameFrame_retire (s : State) : s.SameFrame s.retire := ⟨rfl, rfl, rfl, rfl, rfl, rfl, rfl⟩

theorem sameFrame_setStatus (s : State) (b : StatusBit) : s.SameFrame (s.setStatus b) :=
  ⟨rfl, rfl, rfl, rfl, rfl, rfl, rfl⟩

theorem sameFrame_clearStatus (s : State) : s.SameFrame s.clearStatus :=
  ⟨rfl, rfl, rfl, rfl, rfl, rfl, rfl⟩

theorem sameFrame_transfer (s : State) (t : Word) : s.SameFrame (s.transfer t) := by
  unfold State.transfer; split <;> exact ⟨rfl, rfl, rfl, rfl, rfl, rfl, rfl⟩

theorem sameFrame_branch (s : State) (c : Bool) (off : BitVec 13) : s.SameFrame (s.branch c off) := by
  cases c
  · exact sameFrame_retire s
  · exact (sameFrame_setStatus s _).trans (sameFrame_transfer _ _)

theorem sameFrame_setBank (s : State) (b : Bank) (m : Memory) : s.SameFrame (s.setBank b m) := by
  cases b <;> exact ⟨rfl, rfl, rfl, rfl, rfl, rfl, rfl⟩

theorem sameFrame_storeAt (s : State) (p : Place) (bs : List Byte) : s.SameFrame (s.storeAt p bs) :=
  sameFrame_setBank s _ _

theorem sameFrame_draw (s : State) : s.SameFrame s.draw := ⟨rfl, rfl, rfl, rfl, rfl, rfl, rfl⟩

/-! ### The resolver -/

/-- Where an address resolves depends only on what never changes. -/
theorem resolve_congr {s t : State} (h : s.SameFrame t) (a : Word) : t.resolve a = s.resolve a := by
  unfold State.resolve State.slotHit State.slotAt
  rw [h.codeOrigin, h.size, h.slots, h.params]

theorem viewPlace_congr {s t : State} (h : s.SameFrame t) (v : View) :
    t.viewPlace v = s.viewPlace v := by
  simp only [State.viewPlace, h.slots]

theorem accessPlace_congr {s t : State} (h : s.SameFrame t) (a : Word) (n : Nat) :
    t.accessPlace a n = s.accessPlace a n := by
  simp only [State.accessPlace, resolve_congr h, viewPlace_congr h]

/-- The three ways an address resolves (R61). -/
theorem resolve_some {s : State} {a : Word} {v : View} (h : s.resolve a = some v) :
    (4 < a.toNat ∧ a.toNat < s.image.codeOrigin.toNat ∧
      v = ⟨.stack, a.toNat, s.image.codeOrigin.toNat - a.toNat⟩) ∨
    (s.slotHit a = true ∧ (a - (s.slotAt a).base).toNat < (s.slotAt a).size ∧
      v = ⟨.slot (addrSlot a), (a - (s.slotAt a).base).toNat,
        (s.slotAt a).size - (a - (s.slotAt a).base).toNat⟩) ∨
    (s.image.codeOrigin.toNat ≤ a.toNat ∧
      a.toNat - s.image.codeOrigin.toNat < s.image.size ∧
      v = ⟨.code, a.toNat - s.image.codeOrigin.toNat,
        s.image.size - (a.toNat - s.image.codeOrigin.toNat)⟩) := by
  unfold State.resolve at h
  dsimp only at h
  split at h
  · next hs => exact .inl ⟨hs.1, hs.2, by simpa using h.symm⟩
  · split at h
    · next hh =>
      split at h
      · next ho => exact .inr (.inl ⟨hh, ho, by simpa using h.symm⟩)
      · simp at h
    · split at h
      · next hc =>
        split at h
        · next ho => exact .inr (.inr ⟨hc, ho, by simpa using h.symm⟩)
        · simp at h
      · simp at h

/-- A resolved view has at least one byte left. -/
theorem resolve_len_pos {s : State} {a : Word} {v : View} (h : s.resolve a = some v) : 0 < v.len := by
  rcases resolve_some h with ⟨_, h2, rfl⟩ | ⟨_, h2, rfl⟩ | ⟨_, h2, rfl⟩ <;> simp only <;> omega

/-- A one-byte access never overruns. -/
theorem accessPlace_one_ne_overrun (s : State) (a : Word) : s.accessPlace a 1 ≠ .overrun := by
  unfold State.accessPlace
  split
  · simp
  · next v hv => rw [if_neg (by have := resolve_len_pos hv; omega)]; simp

/-- The bytes of an access in the stack or the code image lie inside its buffer. -/
theorem accessPlace_bound {s : State} {a : Word} {n : Nat} {q : Place} (h : s.accessPlace a n = .done q) :
    (q.bank = .stack → q.index + n ≤ s.image.codeOrigin.toNat) ∧
    (q.bank = .code → q.index + n ≤ s.image.size) := by
  unfold State.accessPlace at h
  split at h
  · simp at h
  · next v hv =>
    split at h
    · simp at h
    · next hl =>
      simp only [Access.done.injEq] at h
      subst h
      rcases resolve_some hv with ⟨_, h2, rfl⟩ | ⟨_, h2, rfl⟩ | ⟨_, h2, rfl⟩ <;>
        simp [State.viewPlace] at hl ⊢ <;> omega

/-! ### Reads and writes of guest memory -/

theorem memRead_done {s : State} {a : Word} {n : Nat} {q : Place} (h : s.accessPlace a n = .done q) :
    s.memRead a n = .done (BitVec.ofNat (8 * n) ((s.bank q.bank).readLE q.index n)) := by
  simp [State.memRead, h]

theorem memRead_unresolved {s : State} {a : Word} {n : Nat} (h : s.accessPlace a n = .unresolved) :
    s.memRead a n = .unresolved := by
  simp [State.memRead, h]

theorem memRead_overrun {s : State} {a : Word} {n : Nat} (h : s.accessPlace a n = .overrun) :
    s.memRead a n = .overrun := by
  simp [State.memRead, h]

/-- What a read that answers a value went through. -/
theorem memRead_eq_done {s : State} {a : Word} {n : Nat} {v : BitVec (8 * n)}
    (h : s.memRead a n = .done v) : ∃ q, s.accessPlace a n = .done q ∧
      v = BitVec.ofNat (8 * n) ((s.bank q.bank).readLE q.index n) := by
  unfold State.memRead at h
  split at h
  · next q hq => exact ⟨q, hq, by simpa using h.symm⟩
  · simp at h
  · simp at h

theorem memWrite_done {s : State} {a : Word} {n : Nat} {q : Place} (v : BitVec (8 * n))
    (h : s.accessPlace a n = .done q) : s.memWrite a n v = .done (s.storeAt q (leBytes n v)) := by
  simp [State.memWrite, h]

theorem memWrite_unresolved {s : State} {a : Word} {n : Nat} (v : BitVec (8 * n))
    (h : s.accessPlace a n = .unresolved) : s.memWrite a n v = .unresolved := by
  simp [State.memWrite, h]

theorem memWrite_overrun {s : State} {a : Word} {n : Nat} (v : BitVec (8 * n))
    (h : s.accessPlace a n = .overrun) : s.memWrite a n v = .overrun := by
  simp [State.memWrite, h]

theorem memWrite_eq_done {s t : State} {a : Word} {n : Nat} {v : BitVec (8 * n)}
    (h : s.memWrite a n v = .done t) :
    ∃ q, s.accessPlace a n = .done q ∧ t = s.storeAt q (leBytes n v) := by
  unfold State.memWrite at h
  split at h
  · next q hq => exact ⟨q, hq, by simpa using h.symm⟩
  · simp at h
  · simp at h

/-- The bank of a state after bytes are stored. -/
theorem bank_storeAt (s : State) (q : Place) (bs : List Byte) (b : Bank) :
    (s.storeAt q bs).bank b = if b = q.bank then (s.bank b).writeBytes q.index bs else s.bank b := by
  unfold State.storeAt
  split
  · next h => subst h; simp
  · next h => exact bank_setBank_other s _ h

/-- A stored byte reads back, where the store is in canonical form. -/
theorem readPlace_storeAt_at {s : State} {q : Place} (hm : (s.bank q.bank).wf = true) (bs : List Byte)
    (i : Nat) (hi : i < bs.length) : (s.storeAt q bs).readPlace ⟨q.bank, q.index + i⟩ = bs[i] := by
  simp only [State.readPlace, bank_storeAt, if_true]
  exact Memory.read_writeBytes_at hm q.index bs i hi

/-- Every byte outside the stored range is unchanged. -/
theorem sameBytesBut_storeAt (s : State) (q : Place) (bs : List Byte) :
    s.SameBytesBut (s.storeAt q bs) q bs.length := by
  intro p hp
  simp only [State.readPlace, bank_storeAt]
  split
  · next h => exact Memory.read_writeBytes_other _ _ fun hh => hp ⟨h, hh.1, hh.2⟩
  · rfl

/-! ### Loads and stores -/

/-- Everything a load can answer. -/
theorem load_cases (s : State) (a : Word) (n : Nat) (w : State → BitVec (8 * n) → State) :
    (∃ q, s.accessPlace a n = .done q ∧
      s.load a n w = .next (w s (BitVec.ofNat (8 * n) ((s.bank q.bank).readLE q.index n))).retire) ∨
    (s.accessPlace a n = .unresolved ∧ s.load a n w = .next s.retire) ∨
    (s.accessPlace a n = .overrun ∧ s.load a n w = .refused .accessOverrun) := by
  unfold State.load
  cases h : s.accessPlace a n with
  | done q => exact .inl ⟨q, rfl, by rw [memRead_done h]⟩
  | unresolved => exact .inr (.inl ⟨rfl, by rw [memRead_unresolved h]⟩)
  | overrun => exact .inr (.inr ⟨rfl, by rw [memRead_overrun h]⟩)

/-- Everything a store can answer. -/
theorem store_cases (s : State) (a : Word) (n : Nat) (v : BitVec (8 * n)) :
    (∃ q, s.accessPlace a n = .done q ∧ s.store a n v = .next (s.storeAt q (leBytes n v)).retire) ∨
    (s.accessPlace a n = .unresolved ∧ s.store a n v = .next s.retire) ∨
    (s.accessPlace a n = .overrun ∧ s.store a n v = .refused .accessOverrun) := by
  unfold State.store
  cases h : s.accessPlace a n with
  | done q => exact .inl ⟨q, rfl, by rw [memWrite_done v h]⟩
  | unresolved => exact .inr (.inl ⟨rfl, by rw [memWrite_unresolved v h]⟩)
  | overrun => exact .inr (.inr ⟨rfl, by rw [memWrite_overrun v h]⟩)

theorem load_done {s : State} {a : Word} {n : Nat} {v : BitVec (8 * n)} (h : s.memRead a n = .done v)
    (w : State → BitVec (8 * n) → State) : s.load a n w = .next (w s v).retire := by
  simp [State.load, h]

theorem load_unresolved {s : State} {a : Word} (h : s.resolve a = none) (n : Nat)
    (w : State → BitVec (8 * n) → State) : s.load a n w = .next s.retire := by
  simp [State.load, State.memRead, State.accessPlace, h]

theorem store_done {s : State} {a : Word} {n : Nat} {q : Place} (h : s.accessPlace a n = .done q)
    (v : BitVec (8 * n)) : s.store a n v = .next (s.storeAt q (leBytes n v)).retire := by
  simp [State.store, State.memWrite, h]

theorem store_unresolved {s : State} {a : Word} (h : s.resolve a = none) (n : Nat)
    (v : BitVec (8 * n)) : s.store a n v = .next s.retire := by
  simp [State.store, State.memWrite, State.accessPlace, h]

/-- The two answers FLD and FSD can give, by FLD_FSD_ACTION. -/
theorem stubOr_stub {s : State} (h : s.params.fldFsd = .stub) (m : Result) :
    s.stubOr m = .next s.retire := by
  cases m <;> simp [State.stubOr, State.stub, h]

theorem stubOr_move64 {s : State} (h : s.params.fldFsd = .move64) (m : Result) : s.stubOr m = m := by
  cases m <;> simp [State.stubOr, h]

/-! ### Hooks -/

/-- A byte a hook writes changes one byte of storage at most. -/
theorem hookByte_cases (s : State) (a : Word) (v : Byte) :
    (∃ q, s.accessPlace a 1 = .done q ∧ s.hookByte a v = s.storeAt q [v]) ∨ s.hookByte a v = s := by
  unfold State.hookByte
  cases h : s.accessPlace a 1 with
  | done q =>
    refine .inl ⟨q, rfl, ?_⟩
    rw [memWrite_done (n := 1) v h]
    simp [leBytes]
  | unresolved => exact .inr (by rw [memWrite_unresolved (n := 1) v h])
  | overrun => exact .inr (by rw [memWrite_overrun (n := 1) v h])

/-- What a property of states needs, to hold after the writes of a hook. -/
theorem applyHook_induct (P : State → Prop) (hx : ∀ s r v, P s → P (s.pokeX r v))
    (hf : ∀ s r v, P s → P (s.writeFD r v)) (hb : ∀ s a v, P s → P (s.hookByte a v))
    (e : HookEffect) {s : State} (h : P s) : P (s.applyHook e) := by
  have fold : ∀ {α : Type} (f : State → α → State) (l : List α) (s : State),
      (∀ s c, P s → P (f s c)) → P s → P (l.foldl f s) := by
    intro α f l
    induction l with
    | nil => intro s _ h; exact h
    | cons c l ih => intro s hf h; exact ih (f s c) hf (hf s c h)
  exact fold _ _ _ (fun s c h => hb s c.1 c.2 h)
    (fold _ _ _ (fun s c h => hf s c.1 c.2 h) (fold _ _ _ (fun s c h => hx s c.1 c.2 h) h))

/-- A hook call, for a property that each write of a hook and a draw keep. -/
theorem callHook_induct (P : State → Prop) (hx : ∀ s r v, P s → P (s.pokeX r v))
    (hf : ∀ s r v, P s → P (s.writeFD r v)) (hb : ∀ s a v, P s → P (s.hookByte a v))
    (hd : ∀ s, P s → P s.draw) (k : HookKind) (w : Word) {s : State} (h : P s) :
    P (s.callHook k w) := by
  unfold State.callHook
  split
  · exact hd _ (applyHook_induct P hx hf hb _ h)
  · exact h

/-- A hook is given what it needs to read every byte `resolve` maps: states it cannot tell apart
answer every read alike (R195). -/
theorem memRead_of_hookInput {s t : State} {v w : Word} (h : s.hookInput v = t.hookInput w) (a : Word)
    (n : Nat) : s.memRead a n = t.memRead a n := by
  simp only [State.hookInput, HookInput.mk.injEq] at h
  obtain ⟨-, -, -, -, -, -, hs, hi, hl, hm, -, hp, -⟩ := h
  have hr : s.resolve a = t.resolve a := by
    unfold State.resolve State.slotHit State.slotAt
    rw [hi, hl, hp]
  have hb : ∀ b, s.bank b = t.bank b := by intro b; cases b <;> simp [State.bank, hs, hi, hm]
  simp only [State.memRead, State.accessPlace, State.viewPlace, hr, hb, hl]

theorem callHook_absent {s : State} {k : HookKind} (h : s.hooks.present k = false) (w : Word) :
    s.callHook k w = s := by
  simp [State.callHook, h]

theorem hookByte_frame (s : State) (a : Word) (v : Byte) : s.SameFrame (s.hookByte a v) := by
  rcases hookByte_cases s a v with ⟨q, _, h⟩ | h <;> rw [h]
  · exact sameFrame_storeAt s q _
  · exact .refl s

/-- A hook call changes no configuration, whatever the hook does (R195). -/
theorem callHook_frame (s : State) (k : HookKind) (w : Word) : s.SameFrame (s.callHook k w) :=
  callHook_induct (s.SameFrame ·) (fun _ _ _ h => h.trans (sameFrame_pokeX _ _ _))
    (fun _ _ _ h => h.trans (sameFrame_writeFD _ _ _))
    (fun _ _ _ h => h.trans (hookByte_frame _ _ _)) (fun _ h => h.trans (sameFrame_draw _)) k w
    (.refl s)

/-- A hook call changes neither `pc`, status, the sticky flag nor the counter (R195). -/
theorem callHook_control (s : State) (k : HookKind) (w : Word) :
    (s.callHook k w).pc = s.pc ∧ (s.callHook k w).status = s.status ∧
    (s.callHook k w).fault = s.fault ∧ (s.callHook k w).counter = s.counter :=
  callHook_induct
    (fun t => t.pc = s.pc ∧ t.status = s.status ∧ t.fault = s.fault ∧ t.counter = s.counter)
    (fun _ _ _ h => h) (fun _ _ _ h => h)
    (fun u a v h => by
      rcases hookByte_cases u a v with ⟨q, _, e⟩ | e <;> rw [e]
      · simpa using h
      · exact h)
    (fun _ h => h) k w ⟨rfl, rfl, rfl, rfl⟩

end Sys2Proof.Machine
end

