-- ==== Sys2Proof/Laws/Exec.lean ====
section
/-!
SUPPORT. What executing one instruction can do to the machine, said once for all instructions: the
next state of every instruction in the words of `State.Ran`, so that no later proof takes `exec`
apart again.
-/

namespace Sys2Proof.Machine

/-! ### Byte stores stay canonical -/

theorem storesOk_iff (s : State) : s.storesOk = true ↔
    s.stack.wf = true ∧ s.image.code.wf = true ∧ s.hostMem.wf = true ∧
    s.stack.all (fun c => c.1 < s.image.codeOrigin.toNat) = true ∧
    s.image.code.all (fun c => c.1 < s.image.size) = true := by
  simp only [State.storesOk, Bool.and_eq_true, and_assoc]

/-- A state with the same byte stores, origin and size has canonical stores too. -/
theorem storesOk_congr {s u : State} (h1 : u.stack = s.stack) (h2 : u.image = s.image)
    (h3 : u.hostMem = s.hostMem) : u.storesOk = s.storesOk := by
  simp only [State.storesOk, h1, h2, h3]

/-- Bytes stored where an access of that length starts leave the stores canonical. -/
theorem storesOk_storeAt {s : State} {a : Word} {n : Nat} {q : Place} (h : s.storesOk = true)
    (hq : s.accessPlace a n = .done q) {bs : List Byte} (hl : bs.length = n) :
    (s.storeAt q bs).storesOk = true := by
  obtain ⟨h1, h2, h3, h4, h5⟩ := (storesOk_iff s).1 h
  obtain ⟨b1, b2⟩ := accessPlace_bound hq
  rw [storesOk_iff]
  obtain ⟨b, k⟩ := q
  cases b
  · exact ⟨Memory.wf_writeBytes h1 _ _, h2, h3,
      Memory.below_writeBytes h4 (by
        have := b1 rfl; change k + bs.length ≤ s.image.codeOrigin.toNat; simp only at this; omega), h5⟩
  · exact ⟨h1, Memory.wf_writeBytes h2 _ _, h3, h4,
      Memory.below_writeBytes h5 (by
        have := b2 rfl; change k + bs.length ≤ s.image.size; simp only at this; omega)⟩
  · exact ⟨h1, h2, Memory.wf_writeBytes h3 _ _, h4, h5⟩

theorem storesOk_hookByte {s : State} (h : s.storesOk = true) (a : Word) (v : Byte) :
    (s.hookByte a v).storesOk = true := by
  rcases hookByte_cases s a v with ⟨q, hq, e⟩ | e <;> rw [e]
  · exact storesOk_storeAt h hq rfl
  · exact h

theorem storesOk_callHook {s : State} (h : s.storesOk = true) (k : HookKind) (w : Word) :
    (s.callHook k w).storesOk = true :=
  callHook_induct (fun t => t.storesOk = true) (fun _ _ _ h => h) (fun _ _ _ h => h)
    (fun _ a v h => storesOk_hookByte h a v) (fun _ h => h) k w h

/-! ### What an instruction leaves -/

/-- The status bits an instruction that transfers control sets, but for NATIVE (R41, R192). -/
def transferBits : Instr → Status
  | .jal _ _ => StatusBit.mask .jal
  | .jalr rd rs1 imm =>
    StatusBit.mask .jalr ||| (if isRet rd rs1 imm then StatusBit.mask .ret else 0)
  | _ => StatusBit.mask .branchTaken

/-- The status bits an instruction sets in a state (R41, R191, R192). -/
def State.eventsOf (s : State) (i : Instr) : Status :=
  match s.transferOf i with
  | none => 0
  | some t => transferBits i ||| (if t = s.params.nativePc then StatusBit.mask .native else 0)

/-- What holds between the states before and after an instruction, whichever it is. -/
structure State.Ran (s t : State) (i : Instr) : Prop where
  frame   : s.SameFrame t
  fault   : t.fault = s.fault
  counter : t.counter = s.counter + 1
  pc      : t.pc = (s.transferOf i).getD (s.pc + 4)
  status  : t.status = s.status ||| s.eventsOf i
  stores  : s.storesOk = true → t.storesOk = true
  zero    : (∀ k, hookOf i = some k → s.hooks.present k = false) → t.readX 0 = s.readX 0

/-- What the part of an instruction before `retire` keeps. -/
structure State.Kept (s u : State) : Prop where
  frame   : s.SameFrame u
  fault   : u.fault = s.fault
  counter : u.counter = s.counter
  pc      : u.pc = s.pc
  status  : u.status = s.status
  stores  : s.storesOk = true → u.storesOk = true

theorem State.Kept.refl (s : State) : s.Kept s := ⟨.refl s, rfl, rfl, rfl, rfl, id⟩

theorem kept_writeX (s : State) (r : Reg) (v : Word) : s.Kept (s.writeX r v) :=
  ⟨sameFrame_writeX s r v, by simp, by simp, by simp, by simp, fun h => by
    rw [storesOk_congr (s := s) (by simp) (by simp) (by simp)]; exact h⟩

theorem kept_writeFD (s : State) (r : Reg) (v : DWord) : s.Kept (s.writeFD r v) :=
  ⟨sameFrame_writeFD s r v, rfl, rfl, rfl, rfl, fun h => h⟩

theorem kept_writeFS (s : State) (r : Reg) (v : Word) : s.Kept (s.writeFS r v) := kept_writeFD s r _

theorem kept_writeResult (s : State) (r : Reg) (o : Option Word) : s.Kept (s.writeResult r o) := by
  cases o <;> exact ⟨sameFrame_writeResult s r _, rfl, rfl, rfl, rfl, fun h => h⟩

theorem kept_callHook (s : State) (k : HookKind) (w : Word) : s.Kept (s.callHook k w) :=
  have c := callHook_control s k w
  ⟨callHook_frame s k w, c.2.2.1, c.2.2.2, c.1, c.2.1, fun h => storesOk_callHook h k w⟩

theorem kept_storeAt {s : State} {a : Word} {n : Nat} {q : Place} (hq : s.accessPlace a n = .done q)
    {bs : List Byte} (hl : bs.length = n) : s.Kept (s.storeAt q bs) :=
  ⟨sameFrame_storeAt s q bs, by simp, by simp, by simp, by simp, fun h => storesOk_storeAt h hq hl⟩

theorem readX_storeAt (s : State) (q : Place) (bs : List Byte) (r : Reg) :
    (s.storeAt q bs).readX r = s.readX r := by simp [State.readX]

theorem readX_writeResult (s : State) (rd : Reg) (o : Option Word) (r : Reg) :
    (s.writeResult rd o).readX r = s.readX r := by simp [State.readX]

/-- An instruction that ends in `retire`. -/
theorem ran_retire {s u : State} {i : Instr} (k : s.Kept u) (ht : s.transferOf i = none)
    (hz : (∀ k, hookOf i = some k → s.hooks.present k = false) → u.readX 0 = s.readX 0) :
    s.Ran u.retire i :=
  ⟨k.frame.trans (sameFrame_retire u), k.fault, by simp [k.counter], by simp [k.pc, ht],
    by simp [k.status, State.eventsOf, ht], fun h => k.stores h, hz⟩

/-- A branch. -/
theorem ran_branch {s : State} {i : Instr} {c : Bool} {off : BitVec 13}
    (hb : transferBits i = StatusBit.mask .branchTaken)
    (ht : s.transferOf i = if c then some (s.pc + off.signExtend 32) else none) :
    s.Ran (s.branch c off) i := by
  refine ⟨sameFrame_branch s c off, by simp, by simp, ?_, ?_, fun h => ?_, fun _ => by simp [State.readX]⟩
  · rw [ht]; cases c <;> simp [State.branchTarget]
  · cases c
    · simp [State.branch, State.eventsOf, ht]
    · simp only [State.branch, if_true, transfer_status, setStatus_status, State.branchTarget,
        setStatus_params, BitVec.or_assoc, State.eventsOf, ht, hb]
      rfl
  · rw [storesOk_congr (s := s) (by simp) (by simp) (by simp)]; exact h

/-- A JAL or JALR, whose target is read before the link is written. -/
theorem ran_jump {s u : State} {i : Instr} {t : Word} (k : s.Kept u) (hz : u.readX 0 = s.readX 0)
    {b : Status} (hb : transferBits i = b) (ht : s.transferOf i = some t)
    {v : State} (hv : v = { u with status := u.status ||| b }) : s.Ran (v.transfer t) i := by
  subst hv
  refine ⟨k.frame.trans ((⟨rfl, rfl, rfl, rfl, rfl, rfl, rfl⟩ :
    u.SameFrame { u with status := u.status ||| b }).trans (sameFrame_transfer _ t)), ?_, ?_,
    ?_, ?_, fun h => ?_, fun _ => ?_⟩
  · simp [k.fault]
  · simp [k.counter]
  · simp [ht]
  · simp [State.eventsOf, ht, hb, k.status, BitVec.or_assoc, k.frame.params]
  · rw [storesOk_congr (s := u) (by simp) (by simp) (by simp)]; exact k.stores h
  · rw [← hz]; simp [State.readX]

/-- A load that answers a next state. -/
theorem ran_load {s t : State} {i : Instr} {a : Word} {n : Nat} {w : State → BitVec (8 * n) → State}
    (h : s.load a n w = .next t) (hw : ∀ v, s.Kept (w s v)) (ht : s.transferOf i = none)
    (hz : ∀ v, (w s v).readX 0 = s.readX 0) : s.Ran t i := by
  rcases load_cases s a n w with ⟨q, _, e⟩ | ⟨_, e⟩ | ⟨_, e⟩ <;> rw [e] at h <;> cases h
  · exact ran_retire (hw _) ht fun _ => hz _
  · exact ran_retire (.refl s) ht fun _ => rfl

/-- A store that answers a next state. -/
theorem ran_store {s t : State} {i : Instr} {a : Word} {n : Nat} {v : BitVec (8 * n)}
    (h : s.store a n v = .next t) (ht : s.transferOf i = none) :
    s.Ran t i := by
  rcases store_cases s a n v with ⟨q, hq, e⟩ | ⟨_, e⟩ | ⟨_, e⟩ <;> rw [e] at h <;> cases h
  · exact ran_retire (kept_storeAt hq (leBytes_length n v)) ht fun _ => readX_storeAt s q _ 0
  · exact ran_retire (.refl s) ht fun _ => rfl

theorem stubOr_next {s t : State} {m : Result} (h : s.stubOr m = .next t) :
    t = s.retire ∨ m = .next t := by
  cases hf : s.params.fldFsd with
  | stub => rw [stubOr_stub hf] at h; cases h; exact .inl rfl
  | move64 => rw [stubOr_move64 hf] at h; exact .inr h

/-- Everything an instruction that answers a next state leaves (R105, R190, R191, R41, R44, R31). -/
theorem exec_ran {i : Instr} {s t : State} (h : exec i s = .next t) : s.Ran t i := by
  cases i
  case lb | lh | lw | lbu | lhu =>
    simp only [exec, execLb, execLh, execLw, execLbu, execLhu] at h
    exact ran_load h (fun v => kept_writeX s _ _) rfl (fun v => readX_zero_writeX s _ _)
  case flw =>
    simp only [exec, execFlw] at h
    exact ran_load h (fun v => kept_writeFS s _ _) rfl (fun v => rfl)
  case sb | sh | sw | fsw =>
    simp only [exec, execSb, execSh, execSw, execFsw] at h
    exact ran_store h rfl
  case fld =>
    simp only [exec, execFld] at h
    rcases stubOr_next h with rfl | h
    · exact ran_retire (.refl s) rfl fun _ => rfl
    · exact ran_load h (fun v => kept_writeFD s _ _) rfl (fun v => rfl)
  case fsd =>
    simp only [exec, execFsd] at h
    rcases stubOr_next h with rfl | h
    · exact ran_retire (.refl s) rfl fun _ => rfl
    · exact ran_store h rfl
  all_goals cases h
  case beq | bne | blt | bge | bltu | bgeu =>
    exact ran_branch rfl (by simp [State.transferOf, ltSigned, ltUnsigned])
  case jal rd off => exact ran_jump (kept_writeX s _ _) (readX_zero_writeX s _ _) rfl rfl rfl
  case jalr rd rs1 imm =>
    refine ran_jump (kept_writeX s rd (s.pc + 4)) (readX_zero_writeX s _ _) rfl rfl ?_
    simp only [transferBits, State.setStatus]
    split <;> simp [BitVec.or_assoc]
  all_goals
    first
    | exact ran_retire (.refl s) rfl fun _ => rfl
    | exact ran_retire (kept_writeX s _ _) rfl fun _ => readX_zero_writeX s _ _
    | exact ran_retire (kept_writeFS s _ _) rfl fun _ => rfl
    | exact ran_retire (kept_writeResult s _ _) rfl fun _ => readX_writeResult s _ _ 0
    | exact ran_retire (kept_callHook s _ _) rfl fun hk => by rw [callHook_absent (hk _ rfl)]

/-- An instruction ends in a next state, or is refused because its access overruns (R62, R274). -/
theorem exec_outcome (i : Instr) (s : State) :
    (∃ t, exec i s = .next t) ∨ exec i s = .refused .accessOverrun := by
  have load : ∀ a n w, (∃ t, s.load a n w = .next t) ∨ s.load a n w = .refused .accessOverrun := by
    intro a n w
    rcases load_cases s a n w with ⟨q, _, e⟩ | ⟨_, e⟩ | ⟨_, e⟩ <;> simp [e]
  have store : ∀ a n v, (∃ t, s.store a n v = .next t) ∨ s.store a n v = .refused .accessOverrun := by
    intro a n v
    rcases store_cases s a n v with ⟨q, _, e⟩ | ⟨_, e⟩ | ⟨_, e⟩ <;> simp [e]
  have stub : ∀ {m : Result}, ((∃ t, m = .next t) ∨ m = .refused .accessOverrun) →
      (∃ t, s.stubOr m = .next t) ∨ s.stubOr m = .refused .accessOverrun := by
    intro m hm
    cases hf : s.params.fldFsd with
    | stub => exact .inl ⟨_, stubOr_stub hf m⟩
    | move64 => rw [stubOr_move64 hf]; exact hm
  cases i
  case lb | lh | lw | lbu | lhu | flw =>
    simp only [exec, execLb, execLh, execLw, execLbu, execLhu, execFlw]
    exact load _ _ _
  case sb | sh | sw | fsw => exact store _ _ _
  case fld =>
    simp only [exec, execFld]
    exact stub (load _ _ _)
  case fsd => exact stub (store _ _ _)
  all_goals exact .inl ⟨_, rfl⟩

end Sys2Proof.Machine
end

