-- ==== Sys2Proof/Laws/PerInstr.lean ====
section
/-!
SUPPORT. The family `EncodesOwnRow`: the word of every well-formed instruction passes the length
check, fits a row of the opcode table, and that row reads the instruction back with every operand
(R99, R101). A word of the bit-manipulation group is its own encoding.
-/

namespace Sys2Proof.Laws.EncodesOwnRow

-- one theorem at a time: a hundred at once ask for more threads than the check allows
set_option Elab.async false

/-- What holds of every instruction. -/
def Statement (i : Instr) : Prop := i.wf = true →
  is32 (encode i) = true ∧
  ((∃ r ∈ opcodeRows, r.sel.fits (encode i) = true ∧ r.build (encode i) = i) ∨
    ∃ w, i = .bitmanipGroup w ∧ encode i = w)

/-- From the place of the row in the table. -/
theorem atRow {i : Instr} {r : Row} (k : Nat) (hr : opcodeRows[k]? = some r)
    (h32 : is32 (encode i) = true) (hf : r.sel.fits (encode i) = true) (hb : i.wf = true → r.build (encode i) = i) :
    Statement i :=
  fun hw => ⟨h32, .inl ⟨r, List.mem_of_getElem? hr, hf, hb hw⟩⟩

theorem lui (rd : Reg) (imm : BitVec 20) : Statement (.lui rd imm) :=
  atRow 0 rfl (by simp [is32_eq_opcode, encode])
    (by simp [Selector.fits, encode]) (fun _ => by simp [encode])

theorem auipc (rd : Reg) (imm : BitVec 20) : Statement (.auipc rd imm) :=
  atRow 1 rfl (by simp [is32_eq_opcode, encode])
    (by simp [Selector.fits, encode]) (fun _ => by simp [encode])

theorem addi (rd rs1 : Reg) (imm : BitVec 12) : Statement (.addi rd rs1 imm) :=
  atRow 2 rfl (by simp [is32_eq_opcode, encode])
    (by simp [Selector.fits, encode]) (fun _ => by simp [encode])

theorem slti (rd rs1 : Reg) (imm : BitVec 12) : Statement (.slti rd rs1 imm) :=
  atRow 3 rfl (by simp [is32_eq_opcode, encode])
    (by simp [Selector.fits, encode]) (fun _ => by simp [encode])

theorem sltiu (rd rs1 : Reg) (imm : BitVec 12) : Statement (.sltiu rd rs1 imm) :=
  atRow 4 rfl (by simp [is32_eq_opcode, encode])
    (by simp [Selector.fits, encode]) (fun _ => by simp [encode])

theorem xori (rd rs1 : Reg) (imm : BitVec 12) : Statement (.xori rd rs1 imm) :=
  atRow 5 rfl (by simp [is32_eq_opcode, encode])
    (by simp [Selector.fits, encode]) (fun _ => by simp [encode])

theorem ori (rd rs1 : Reg) (imm : BitVec 12) : Statement (.ori rd rs1 imm) :=
  atRow 6 rfl (by simp [is32_eq_opcode, encode])
    (by simp [Selector.fits, encode]) (fun _ => by simp [encode])

theorem andi (rd rs1 : Reg) (imm : BitVec 12) : Statement (.andi rd rs1 imm) :=
  atRow 7 rfl (by simp [is32_eq_opcode, encode])
    (by simp [Selector.fits, encode]) (fun _ => by simp [encode])

theorem slli (rd rs1 : Reg) (shamt : BitVec 5) : Statement (.slli rd rs1 shamt) :=
  atRow 8 rfl (by simp [is32_eq_opcode, encode])
    (by simp [Selector.fits, encode]) (fun _ => by simp [encode])

theorem srli (rd rs1 : Reg) (shamt : BitVec 5) : Statement (.srli rd rs1 shamt) :=
  atRow 9 rfl (by simp [is32_eq_opcode, encode])
    (by simp [Selector.fits, encode]) (fun _ => by simp [encode])

theorem srai (rd rs1 : Reg) (shamt : BitVec 5) : Statement (.srai rd rs1 shamt) :=
  atRow 10 rfl (by simp [is32_eq_opcode, encode])
    (by simp [Selector.fits, encode]) (fun _ => by simp [encode])

theorem add (rd rs1 rs2 : Reg) : Statement (.add rd rs1 rs2) :=
  atRow 11 rfl (by simp [is32_eq_opcode, encode])
    (by simp [Selector.fits, encode]) (fun _ => by simp [encode])

theorem sub (rd rs1 rs2 : Reg) : Statement (.sub rd rs1 rs2) :=
  atRow 12 rfl (by simp [is32_eq_opcode, encode])
    (by simp [Selector.fits, encode]) (fun _ => by simp [encode])

theorem sll (rd rs1 rs2 : Reg) : Statement (.sll rd rs1 rs2) :=
  atRow 13 rfl (by simp [is32_eq_opcode, encode])
    (by simp [Selector.fits, encode]) (fun _ => by simp [encode])

theorem slt (rd rs1 rs2 : Reg) : Statement (.slt rd rs1 rs2) :=
  atRow 14 rfl (by simp [is32_eq_opcode, encode])
    (by simp [Selector.fits, encode]) (fun _ => by simp [encode])

theorem sltu (rd rs1 rs2 : Reg) : Statement (.sltu rd rs1 rs2) :=
  atRow 15 rfl (by simp [is32_eq_opcode, encode])
    (by simp [Selector.fits, encode]) (fun _ => by simp [encode])

theorem xor (rd rs1 rs2 : Reg) : Statement (.xor rd rs1 rs2) :=
  atRow 16 rfl (by simp [is32_eq_opcode, encode])
    (by simp [Selector.fits, encode]) (fun _ => by simp [encode])

theorem srl (rd rs1 rs2 : Reg) : Statement (.srl rd rs1 rs2) :=
  atRow 17 rfl (by simp [is32_eq_opcode, encode])
    (by simp [Selector.fits, encode]) (fun _ => by simp [encode])

theorem sra (rd rs1 rs2 : Reg) : Statement (.sra rd rs1 rs2) :=
  atRow 18 rfl (by simp [is32_eq_opcode, encode])
    (by simp [Selector.fits, encode]) (fun _ => by simp [encode])

theorem or (rd rs1 rs2 : Reg) : Statement (.or rd rs1 rs2) :=
  atRow 19 rfl (by simp [is32_eq_opcode, encode])
    (by simp [Selector.fits, encode]) (fun _ => by simp [encode])

theorem and (rd rs1 rs2 : Reg) : Statement (.and rd rs1 rs2) :=
  atRow 20 rfl (by simp [is32_eq_opcode, encode])
    (by simp [Selector.fits, encode]) (fun _ => by simp [encode])

theorem mul (rd rs1 rs2 : Reg) : Statement (.mul rd rs1 rs2) :=
  atRow 21 rfl (by simp [is32_eq_opcode, encode])
    (by simp [Selector.fits, encode]) (fun _ => by simp [encode])

theorem mulh (rd rs1 rs2 : Reg) : Statement (.mulh rd rs1 rs2) :=
  atRow 22 rfl (by simp [is32_eq_opcode, encode])
    (by simp [Selector.fits, encode]) (fun _ => by simp [encode])

theorem mulhsu (rd rs1 rs2 : Reg) : Statement (.mulhsu rd rs1 rs2) :=
  atRow 23 rfl (by simp [is32_eq_opcode, encode])
    (by simp [Selector.fits, encode]) (fun _ => by simp [encode])

theorem mulhu (rd rs1 rs2 : Reg) : Statement (.mulhu rd rs1 rs2) :=
  atRow 24 rfl (by simp [is32_eq_opcode, encode])
    (by simp [Selector.fits, encode]) (fun _ => by simp [encode])

theorem div (rd rs1 rs2 : Reg) : Statement (.div rd rs1 rs2) :=
  atRow 25 rfl (by simp [is32_eq_opcode, encode])
    (by simp [Selector.fits, encode]) (fun _ => by simp [encode])

theorem divu (rd rs1 rs2 : Reg) : Statement (.divu rd rs1 rs2) :=
  atRow 26 rfl (by simp [is32_eq_opcode, encode])
    (by simp [Selector.fits, encode]) (fun _ => by simp [encode])

theorem rem (rd rs1 rs2 : Reg) : Statement (.rem rd rs1 rs2) :=
  atRow 27 rfl (by simp [is32_eq_opcode, encode])
    (by simp [Selector.fits, encode]) (fun _ => by simp [encode])

theorem remu (rd rs1 rs2 : Reg) : Statement (.remu rd rs1 rs2) :=
  atRow 28 rfl (by simp [is32_eq_opcode, encode])
    (by simp [Selector.fits, encode]) (fun _ => by simp [encode])

theorem lb (rd rs1 : Reg) (imm : BitVec 12) : Statement (.lb rd rs1 imm) :=
  atRow 29 rfl (by simp [is32_eq_opcode, encode])
    (by simp [Selector.fits, encode]) (fun _ => by simp [encode])

theorem lh (rd rs1 : Reg) (imm : BitVec 12) : Statement (.lh rd rs1 imm) :=
  atRow 30 rfl (by simp [is32_eq_opcode, encode])
    (by simp [Selector.fits, encode]) (fun _ => by simp [encode])

theorem lw (rd rs1 : Reg) (imm : BitVec 12) : Statement (.lw rd rs1 imm) :=
  atRow 31 rfl (by simp [is32_eq_opcode, encode])
    (by simp [Selector.fits, encode]) (fun _ => by simp [encode])

theorem lbu (rd rs1 : Reg) (imm : BitVec 12) : Statement (.lbu rd rs1 imm) :=
  atRow 32 rfl (by simp [is32_eq_opcode, encode])
    (by simp [Selector.fits, encode]) (fun _ => by simp [encode])

theorem lhu (rd rs1 : Reg) (imm : BitVec 12) : Statement (.lhu rd rs1 imm) :=
  atRow 33 rfl (by simp [is32_eq_opcode, encode])
    (by simp [Selector.fits, encode]) (fun _ => by simp [encode])

theorem sb (rs1 rs2 : Reg) (imm : BitVec 12) : Statement (.sb rs1 rs2 imm) :=
  atRow 34 rfl (by simp [is32_eq_opcode, encode])
    (by simp [Selector.fits, encode]) (fun _ => by simp [encode])

theorem sh (rs1 rs2 : Reg) (imm : BitVec 12) : Statement (.sh rs1 rs2 imm) :=
  atRow 35 rfl (by simp [is32_eq_opcode, encode])
    (by simp [Selector.fits, encode]) (fun _ => by simp [encode])

theorem sw (rs1 rs2 : Reg) (imm : BitVec 12) : Statement (.sw rs1 rs2 imm) :=
  atRow 36 rfl (by simp [is32_eq_opcode, encode])
    (by simp [Selector.fits, encode]) (fun _ => by simp [encode])

theorem beq (rs1 rs2 : Reg) (off : BitVec 13) : Statement (.beq rs1 rs2 off) :=
  atRow 37 rfl (by simp [is32_eq_opcode, encode])
    (by simp [Selector.fits, encode]) (fun h => by simp [encode, immSB13_encSB _ _ _ _ _ h])

theorem bne (rs1 rs2 : Reg) (off : BitVec 13) : Statement (.bne rs1 rs2 off) :=
  atRow 38 rfl (by simp [is32_eq_opcode, encode])
    (by simp [Selector.fits, encode]) (fun h => by simp [encode, immSB13_encSB _ _ _ _ _ h])

theorem blt (rs1 rs2 : Reg) (off : BitVec 13) : Statement (.blt rs1 rs2 off) :=
  atRow 39 rfl (by simp [is32_eq_opcode, encode])
    (by simp [Selector.fits, encode]) (fun h => by simp [encode, immSB13_encSB _ _ _ _ _ h])

theorem bge (rs1 rs2 : Reg) (off : BitVec 13) : Statement (.bge rs1 rs2 off) :=
  atRow 40 rfl (by simp [is32_eq_opcode, encode])
    (by simp [Selector.fits, encode]) (fun h => by simp [encode, immSB13_encSB _ _ _ _ _ h])

theorem bltu (rs1 rs2 : Reg) (off : BitVec 13) : Statement (.bltu rs1 rs2 off) :=
  atRow 41 rfl (by simp [is32_eq_opcode, encode])
    (by simp [Selector.fits, encode]) (fun h => by simp [encode, immSB13_encSB _ _ _ _ _ h])

theorem bgeu (rs1 rs2 : Reg) (off : BitVec 13) : Statement (.bgeu rs1 rs2 off) :=
  atRow 42 rfl (by simp [is32_eq_opcode, encode])
    (by simp [Selector.fits, encode]) (fun h => by simp [encode, immSB13_encSB _ _ _ _ _ h])

theorem jal (rd : Reg) (off : BitVec 21) : Statement (.jal rd off) :=
  atRow 43 rfl (by simp [is32_eq_opcode, encode])
    (by simp [Selector.fits, encode]) (fun h => by simp [encode, immUJ21_encUJ _ _ _ h])

theorem jalr (rd rs1 : Reg) (imm : BitVec 12) : Statement (.jalr rd rs1 imm) :=
  atRow 44 rfl (by simp [is32_eq_opcode, encode])
    (by simp [Selector.fits, encode]) (fun _ => by simp [encode])

theorem ecall : Statement .ecall :=
  atRow 45 rfl (by decide) (by decide) fun _ => rfl

theorem ebreak : Statement .ebreak :=
  atRow 46 rfl (by decide) (by decide) fun _ => rfl

theorem atomicGroup (rd rs1 rs2 : Reg) (funct3 : BitVec 3) (funct7 : BitVec 7) : Statement (.atomicGroup rd rs1 rs2 funct3 funct7) :=
  atRow 47 rfl (by simp [is32_eq_opcode, encode])
    (by simp [Selector.fits, encode]) (fun _ => by simp [encode])

theorem bitmanipGroup (w : Word) : Statement (.bitmanipGroup w) :=
  fun hw => ⟨hw, .inr ⟨w, rfl, rfl⟩⟩

theorem flw (rd rs1 : Reg) (imm : BitVec 12) : Statement (.flw rd rs1 imm) :=
  atRow 48 rfl (by simp [is32_eq_opcode, encode])
    (by simp [Selector.fits, encode]) (fun _ => by simp [encode])

theorem fsw (rs1 rs2 : Reg) (imm : BitVec 12) : Statement (.fsw rs1 rs2 imm) :=
  atRow 49 rfl (by simp [is32_eq_opcode, encode])
    (by simp [Selector.fits, encode]) (fun _ => by simp [encode])

theorem fld (rd rs1 : Reg) (imm : BitVec 12) : Statement (.fld rd rs1 imm) :=
  atRow 50 rfl (by simp [is32_eq_opcode, encode])
    (by simp [Selector.fits, encode]) (fun _ => by simp [encode])

theorem fsd (rs1 rs2 : Reg) (imm : BitVec 12) : Statement (.fsd rs1 rs2 imm) :=
  atRow 51 rfl (by simp [is32_eq_opcode, encode])
    (by simp [Selector.fits, encode]) (fun _ => by simp [encode])

theorem faddS (rd rs1 rs2 : Reg) (rm : BitVec 3) : Statement (.faddS rd rs1 rs2 rm) :=
  atRow 52 rfl (by simp [is32_eq_opcode, encode])
    (by simp [Selector.fits, encode]) (fun _ => by simp [encode])

theorem fsubS (rd rs1 rs2 : Reg) (rm : BitVec 3) : Statement (.fsubS rd rs1 rs2 rm) :=
  atRow 53 rfl (by simp [is32_eq_opcode, encode])
    (by simp [Selector.fits, encode]) (fun _ => by simp [encode])

theorem fmulS (rd rs1 rs2 : Reg) (rm : BitVec 3) : Statement (.fmulS rd rs1 rs2 rm) :=
  atRow 54 rfl (by simp [is32_eq_opcode, encode])
    (by simp [Selector.fits, encode]) (fun _ => by simp [encode])

theorem fdivS (rd rs1 rs2 : Reg) (rm : BitVec 3) : Statement (.fdivS rd rs1 rs2 rm) :=
  atRow 55 rfl (by simp [is32_eq_opcode, encode])
    (by simp [Selector.fits, encode]) (fun _ => by simp [encode])

theorem fsqrtS (rd rs1 : Reg) (rm : BitVec 3) : Statement (.fsqrtS rd rs1 rm) :=
  atRow 56 rfl (by simp [is32_eq_opcode, encode])
    (by simp [Selector.fits, encode]) (fun _ => by simp [encode])

theorem fsgnjS (rd rs1 rs2 : Reg) : Statement (.fsgnjS rd rs1 rs2) :=
  atRow 57 rfl (by simp [is32_eq_opcode, encode])
    (by simp [Selector.fits, encode]) (fun _ => by simp [encode])

theorem fsgnjnS (rd rs1 rs2 : Reg) : Statement (.fsgnjnS rd rs1 rs2) :=
  atRow 58 rfl (by simp [is32_eq_opcode, encode])
    (by simp [Selector.fits, encode]) (fun _ => by simp [encode])

theorem fsgnjxS (rd rs1 rs2 : Reg) : Statement (.fsgnjxS rd rs1 rs2) :=
  atRow 59 rfl (by simp [is32_eq_opcode, encode])
    (by simp [Selector.fits, encode]) (fun _ => by simp [encode])

theorem fminS (rd rs1 rs2 : Reg) : Statement (.fminS rd rs1 rs2) :=
  atRow 60 rfl (by simp [is32_eq_opcode, encode])
    (by simp [Selector.fits, encode]) (fun _ => by simp [encode])

theorem fmaxS (rd rs1 rs2 : Reg) : Statement (.fmaxS rd rs1 rs2) :=
  atRow 61 rfl (by simp [is32_eq_opcode, encode])
    (by simp [Selector.fits, encode]) (fun _ => by simp [encode])

theorem fcvtWS (rd rs1 : Reg) (rm : BitVec 3) : Statement (.fcvtWS rd rs1 rm) :=
  atRow 62 rfl (by simp [is32_eq_opcode, encode])
    (by simp [Selector.fits, encode]) (fun _ => by simp [encode])

theorem fcvtWuS (rd rs1 : Reg) (rm : BitVec 3) : Statement (.fcvtWuS rd rs1 rm) :=
  atRow 63 rfl (by simp [is32_eq_opcode, encode])
    (by simp [Selector.fits, encode]) (fun _ => by simp [encode])

theorem fmvXW (rd rs1 : Reg) : Statement (.fmvXW rd rs1) :=
  atRow 64 rfl (by simp [is32_eq_opcode, encode])
    (by simp [Selector.fits, encode]) (fun _ => by simp [encode])

theorem feqS (rd rs1 rs2 : Reg) : Statement (.feqS rd rs1 rs2) :=
  atRow 65 rfl (by simp [is32_eq_opcode, encode])
    (by simp [Selector.fits, encode]) (fun _ => by simp [encode])

theorem fltS (rd rs1 rs2 : Reg) : Statement (.fltS rd rs1 rs2) :=
  atRow 66 rfl (by simp [is32_eq_opcode, encode])
    (by simp [Selector.fits, encode]) (fun _ => by simp [encode])

theorem fleS (rd rs1 rs2 : Reg) : Statement (.fleS rd rs1 rs2) :=
  atRow 67 rfl (by simp [is32_eq_opcode, encode])
    (by simp [Selector.fits, encode]) (fun _ => by simp [encode])

theorem fcvtSW (rd rs1 : Reg) (rm : BitVec 3) : Statement (.fcvtSW rd rs1 rm) :=
  atRow 68 rfl (by simp [is32_eq_opcode, encode])
    (by simp [Selector.fits, encode]) (fun _ => by simp [encode])

theorem fcvtSWu (rd rs1 : Reg) (rm : BitVec 3) : Statement (.fcvtSWu rd rs1 rm) :=
  atRow 69 rfl (by simp [is32_eq_opcode, encode])
    (by simp [Selector.fits, encode]) (fun _ => by simp [encode])

theorem fmvWX (rd rs1 : Reg) : Statement (.fmvWX rd rs1) :=
  atRow 70 rfl (by simp [is32_eq_opcode, encode])
    (by simp [Selector.fits, encode]) (fun _ => by simp [encode])

theorem fmaddS (rd rs1 rs2 rs3 : Reg) (rm : BitVec 3) : Statement (.fmaddS rd rs1 rs2 rs3 rm) :=
  atRow 71 rfl (by simp [is32_eq_opcode, encode])
    (by simp [Selector.fits, encode]) (fun _ => by simp [encode])

theorem fmsubS (rd rs1 rs2 rs3 : Reg) (rm : BitVec 3) : Statement (.fmsubS rd rs1 rs2 rs3 rm) :=
  atRow 72 rfl (by simp [is32_eq_opcode, encode])
    (by simp [Selector.fits, encode]) (fun _ => by simp [encode])

theorem fnmsubS (rd rs1 rs2 rs3 : Reg) (rm : BitVec 3) : Statement (.fnmsubS rd rs1 rs2 rs3 rm) :=
  atRow 73 rfl (by simp [is32_eq_opcode, encode])
    (by simp [Selector.fits, encode]) (fun _ => by simp [encode])

theorem fnmaddS (rd rs1 rs2 rs3 : Reg) (rm : BitVec 3) : Statement (.fnmaddS rd rs1 rs2 rs3 rm) :=
  atRow 74 rfl (by simp [is32_eq_opcode, encode])
    (by simp [Selector.fits, encode]) (fun _ => by simp [encode])

theorem faddD (rd rs1 rs2 : Reg) (rm : BitVec 3) : Statement (.faddD rd rs1 rs2 rm) :=
  atRow 75 rfl (by simp [is32_eq_opcode, encode])
    (by simp [Selector.fits, encode]) (fun _ => by simp [encode])

theorem fsubD (rd rs1 rs2 : Reg) (rm : BitVec 3) : Statement (.fsubD rd rs1 rs2 rm) :=
  atRow 76 rfl (by simp [is32_eq_opcode, encode])
    (by simp [Selector.fits, encode]) (fun _ => by simp [encode])

theorem fmulD (rd rs1 rs2 : Reg) (rm : BitVec 3) : Statement (.fmulD rd rs1 rs2 rm) :=
  atRow 77 rfl (by simp [is32_eq_opcode, encode])
    (by simp [Selector.fits, encode]) (fun _ => by simp [encode])

theorem fdivD (rd rs1 rs2 : Reg) (rm : BitVec 3) : Statement (.fdivD rd rs1 rs2 rm) :=
  atRow 78 rfl (by simp [is32_eq_opcode, encode])
    (by simp [Selector.fits, encode]) (fun _ => by simp [encode])

theorem fsqrtD (rd rs1 : Reg) (rm : BitVec 3) : Statement (.fsqrtD rd rs1 rm) :=
  atRow 79 rfl (by simp [is32_eq_opcode, encode])
    (by simp [Selector.fits, encode]) (fun _ => by simp [encode])

theorem fsgnjD (rd rs1 rs2 : Reg) : Statement (.fsgnjD rd rs1 rs2) :=
  atRow 80 rfl (by simp [is32_eq_opcode, encode])
    (by simp [Selector.fits, encode]) (fun _ => by simp [encode])

theorem fsgnjnD (rd rs1 rs2 : Reg) : Statement (.fsgnjnD rd rs1 rs2) :=
  atRow 81 rfl (by simp [is32_eq_opcode, encode])
    (by simp [Selector.fits, encode]) (fun _ => by simp [encode])

theorem fsgnjxD (rd rs1 rs2 : Reg) : Statement (.fsgnjxD rd rs1 rs2) :=
  atRow 82 rfl (by simp [is32_eq_opcode, encode])
    (by simp [Selector.fits, encode]) (fun _ => by simp [encode])

theorem fminD (rd rs1 rs2 : Reg) : Statement (.fminD rd rs1 rs2) :=
  atRow 83 rfl (by simp [is32_eq_opcode, encode])
    (by simp [Selector.fits, encode]) (fun _ => by simp [encode])

theorem fmaxD (rd rs1 rs2 : Reg) : Statement (.fmaxD rd rs1 rs2) :=
  atRow 84 rfl (by simp [is32_eq_opcode, encode])
    (by simp [Selector.fits, encode]) (fun _ => by simp [encode])

theorem fcvtSD (rd rs1 : Reg) (rm : BitVec 3) : Statement (.fcvtSD rd rs1 rm) :=
  atRow 85 rfl (by simp [is32_eq_opcode, encode])
    (by simp [Selector.fits, encode]) (fun _ => by simp [encode])

theorem fcvtDS (rd rs1 : Reg) (rm : BitVec 3) : Statement (.fcvtDS rd rs1 rm) :=
  atRow 86 rfl (by simp [is32_eq_opcode, encode])
    (by simp [Selector.fits, encode]) (fun _ => by simp [encode])

theorem feqD (rd rs1 rs2 : Reg) : Statement (.feqD rd rs1 rs2) :=
  atRow 87 rfl (by simp [is32_eq_opcode, encode])
    (by simp [Selector.fits, encode]) (fun _ => by simp [encode])

theorem fltD (rd rs1 rs2 : Reg) : Statement (.fltD rd rs1 rs2) :=
  atRow 88 rfl (by simp [is32_eq_opcode, encode])
    (by simp [Selector.fits, encode]) (fun _ => by simp [encode])

theorem fleD (rd rs1 rs2 : Reg) : Statement (.fleD rd rs1 rs2) :=
  atRow 89 rfl (by simp [is32_eq_opcode, encode])
    (by simp [Selector.fits, encode]) (fun _ => by simp [encode])

theorem fclassD (rd rs1 : Reg) : Statement (.fclassD rd rs1) :=
  atRow 90 rfl (by simp [is32_eq_opcode, encode])
    (by simp [Selector.fits, encode]) (fun _ => by simp [encode])

theorem fcvtWD (rd rs1 : Reg) (rm : BitVec 3) : Statement (.fcvtWD rd rs1 rm) :=
  atRow 91 rfl (by simp [is32_eq_opcode, encode])
    (by simp [Selector.fits, encode]) (fun _ => by simp [encode])

theorem fcvtWuD (rd rs1 : Reg) (rm : BitVec 3) : Statement (.fcvtWuD rd rs1 rm) :=
  atRow 92 rfl (by simp [is32_eq_opcode, encode])
    (by simp [Selector.fits, encode]) (fun _ => by simp [encode])

theorem fcvtDW (rd rs1 : Reg) (rm : BitVec 3) : Statement (.fcvtDW rd rs1 rm) :=
  atRow 93 rfl (by simp [is32_eq_opcode, encode])
    (by simp [Selector.fits, encode]) (fun _ => by simp [encode])

theorem fcvtDWu (rd rs1 : Reg) (rm : BitVec 3) : Statement (.fcvtDWu rd rs1 rm) :=
  atRow 94 rfl (by simp [is32_eq_opcode, encode])
    (by simp [Selector.fits, encode]) (fun _ => by simp [encode])

theorem fmaddD (rd rs1 rs2 rs3 : Reg) (rm : BitVec 3) : Statement (.fmaddD rd rs1 rs2 rs3 rm) :=
  atRow 95 rfl (by simp [is32_eq_opcode, encode])
    (by simp [Selector.fits, encode]) (fun _ => by simp [encode])

theorem fmsubD (rd rs1 rs2 rs3 : Reg) (rm : BitVec 3) : Statement (.fmsubD rd rs1 rs2 rs3 rm) :=
  atRow 96 rfl (by simp [is32_eq_opcode, encode])
    (by simp [Selector.fits, encode]) (fun _ => by simp [encode])

theorem fnmsubD (rd rs1 rs2 rs3 : Reg) (rm : BitVec 3) : Statement (.fnmsubD rd rs1 rs2 rs3 rm) :=
  atRow 97 rfl (by simp [is32_eq_opcode, encode])
    (by simp [Selector.fits, encode]) (fun _ => by simp [encode])

theorem fnmaddD (rd rs1 rs2 rs3 : Reg) (rm : BitVec 3) : Statement (.fnmaddD rd rs1 rs2 rs3 rm) :=
  atRow 98 rfl (by simp [is32_eq_opcode, encode])
    (by simp [Selector.fits, encode]) (fun _ => by simp [encode])

end Sys2Proof.Laws.EncodesOwnRow
end

