-- ==== Sys2Proof/Laws/Step.lean ====
section
/-!
SUPPORT. What one step can do, said once: the five ways a step answers a next state.
-/

namespace Sys2Proof.Machine

@[simp] theorem fetch_clearStatus (s : State) : s.clearStatus.fetch = s.fetch := rfl

theorem raiseFault_clearStatus (s : State) (c : FaultCause) :
    s.clearStatus.raiseFault c = s.raiseFault c := rfl

/-- A step while the sticky flag is set (R272). -/
theorem step_stuck {s : State} (h : s.fault = true) : step s = .next s.stuckStep := by
  simp [step, State.runStep, h]

/-- A step whose fetch fails (R75, R271). -/
theorem step_fetch_error {s : State} {c : FaultCause} (h : s.fault = false) (hf : s.fetch = .error c) :
    step s = .next (s.raiseFault c) := by
  simp [step, State.runStep, h, hf, raiseFault_clearStatus]

/-- A step on a word that fails the length check (R90). -/
theorem step_not_is32 {s : State} {w : Word} (h : s.fault = false) (hf : s.fetch = .ok w)
    (hw : is32 w = false) : step s = .next (s.raiseFault .invalidEncoding) := by
  simp [step, State.runStep, h, hf, hw, raiseFault_clearStatus]

/-- A step on a word that passes the length check (R105, R106). -/
theorem step_is32 {s : State} {w : Word} (h : s.fault = false) (hf : s.fetch = .ok w)
    (hw : is32 w = true) : step s = s.clearStatus.runWord w := by
  simp [step, State.runStep, h, hf, hw]

/-- The five ways a step answers a next state (R277). -/
theorem step_cases {s t : State} (h : step s = .next t) :
    (s.fault = true ∧ t = s.stuckStep) ∨
    (s.fault = false ∧ ∃ c, s.fetch = .error c ∧ t = s.raiseFault c) ∨
    (s.fault = false ∧ ∃ w, s.fetch = .ok w ∧ is32 w = false ∧ t = s.raiseFault .invalidEncoding) ∨
    (s.fault = false ∧ s.execEn = false ∧ ∃ w, s.fetch = .ok w ∧ is32 w = true ∧
      t = s.clearStatus.advancePc) ∨
    (s.fault = false ∧ s.execEn = true ∧ ∃ w i, s.fetch = .ok w ∧ is32 w = true ∧
      decode s.params w = some i ∧ exec i s.clearStatus = .next t) := by
  cases hq : s.fault with
  | true => rw [step_stuck hq] at h; cases h; exact .inl ⟨rfl, rfl⟩
  | false =>
    cases hf : s.fetch with
    | error c =>
      rw [step_fetch_error hq hf] at h; cases h
      exact .inr (.inl ⟨rfl, c, rfl, rfl⟩)
    | ok w =>
      cases hw : is32 w with
      | false =>
        rw [step_not_is32 hq hf hw] at h; cases h
        exact .inr (.inr (.inl ⟨rfl, w, rfl, hw, rfl⟩))
      | true =>
        rw [step_is32 hq hf hw] at h
        unfold State.runWord at h
        simp only [clearStatus_execEn, clearStatus_params] at h
        cases he : s.execEn with
        | false =>
          simp only [he, Bool.false_eq_true, if_false] at h
          cases h
          exact .inr (.inr (.inr (.inl ⟨rfl, rfl, w, rfl, hw, rfl⟩)))
        | true =>
          simp only [he, if_true] at h
          split at h
          · next i hi => exact .inr (.inr (.inr (.inr ⟨rfl, rfl, w, i, rfl, hw, hi, h⟩)))
          · cases h

end Sys2Proof.Machine
end

