-- ==== Sys2Proof/Tests/Slice0.lean ====
section
/-!
SUPPORT. The model's own tests: ill-formed instructions refused, words written out field by field
from the spec's encodings, one step on small states with the results of 95_test_vectors.md (numbers
V<n>) under its test configuration, and a state and operands that meet the hypotheses of each
statement that has some.
-/

namespace Sys2Proof.Tests

open Sys2Proof.Machine

-- one theorem at a time: hundreds at once ask for more threads than the check allows
set_option Elab.async false

/-! ### The test configuration (95_test_vectors.md section 0) -/

/-- The parameters the vectors fix, with a choice of FLD_FSD_ACTION and BITMANIP_SELECT. -/
def params (a : FldFsdAction) (sel : List WordPattern) : Params :=
  ⟨0x80, 0xFFFFFFF0, Vector.replicate 8 .towardZero, .one, a, sel⟩

/-- A machine with those parameters, an image of 0x400 zero bytes, and `pc` in it. -/
def baseWith (p : Params) : State :=
  (State.initialise p { Image.empty with size := 0x400 } []).setPc 0x10010

/-- The machine of the vectors. -/
def base : State := baseWith (params .stub [])

/-- A word stored at `pc`. -/
def start (w : Word) : State := base.withFetchWord 32 w.toNat

/-- Bytes stored from a stack or code address upward. -/
def put (s : State) (a : Nat) (bs : List Byte) : State :=
  if a < 0x10000 then s.storeAt ⟨.stack, a⟩ bs else s.storeAt ⟨.code, a - 0x10000⟩ bs

/-- A buffer of 8 bytes mapped into slot 0. -/
def mapped (s : State) (bs : List Byte) : State :=
  match (s.writeHost 0x500 bs).map ⟨0x500, 8⟩ 8 with
  | some (t, _) => t
  | none => s

/-- A cell with other bits 63..32. -/
def withHigh (s : State) (r : Reg) (v : Word) : State := s.writeFD r (v ++ s.readFS r)

/-- Does a step answer a next state with a property. -/
def ends (s : State) (p : State → Bool) : Bool :=
  match step s with
  | .next t => p t
  | _ => false

/-- Does a step refuse, for this reason. -/
def refuses (r : Refusal) (s : State) : Bool :=
  match step s with
  | .refused q => q == r
  | _ => false

/-- Does a word only advance `pc` and the counter, from a state with distinct register values. -/
def stubbed (w : Word) : Bool :=
  let s := (((start w).pokeX 5 0x2A).writeFD 5 0x1122334455667788).writeFD 6 0x3FF0000000000000
  ends s fun t => t == { s with pc := 0x10014, counter := 1 }

/-- Do words decode to these instructions, and encode back. -/
def readsAll (l : List (Word × Instr)) : Bool :=
  l.all fun c => decide (decode (params .stub []) c.1 = some c.2) && encode c.2 == c.1

/-! ### Ill-formed instructions -/

theorem test_wf_beq : (Instr.beq 1 2 3).wf = false := by decide
theorem test_wf_bne : (Instr.bne 1 2 5).wf = false := by decide
theorem test_wf_blt : (Instr.blt 1 2 (-1)).wf = false := by decide
theorem test_wf_bge : (Instr.bge 1 2 4095).wf = false := by decide
theorem test_wf_bltu : (Instr.bltu 1 2 7).wf = false := by decide
theorem test_wf_bgeu : (Instr.bgeu 1 2 1).wf = false := by decide
theorem test_wf_jal : (Instr.jal 1 9).wf = false := by decide
theorem test_wf_bitmanip : (Instr.bitmanipGroup 0x0000001F).wf = false := by decide
theorem test_wf_even : (Instr.beq 1 2 (-4096)).wf = true ∧ (Instr.jal 0 1048574).wf = true := by decide

/-! ### Decoding -/

/-- The immediates of four words of 95_test_vectors.md section 2, and the length check. -/
theorem test_immediates :
    (immI 0xFFFFFFFF = -1 ∧ immS 0xFFFFFFFF = -1 ∧ immSB 0xFFFFFFFF = -2 ∧ immU 0xFFFFFFFF = 0xFFFFF ∧
      immUJ 0xFFFFFFFF = -2 ∧ is32 0xFFFFFFFF = false) ∧
    (immI 0x7E000FE3 = 2016 ∧ immS 0x7E000FE3 = 2047 ∧ immSB 0x7E000FE3 = 4094 ∧
      immUJ 0x7E000FE3 = 2016 ∧ is32 0x7E000FE3 = true) ∧
    (immI 0x80000063 = -2048 ∧ immSB 0x80000063 = -4096 ∧ immUJ 0x80000063 = -1048576) ∧
    (immI 0x123452B7 = 291 ∧ immS 0x123452B7 = 293 ∧ immSB 0x123452B7 = 2340 ∧
      immU 0x123452B7 = 0x12345 ∧ immUJ 0x123452B7 = 284962) := by decide

/-- The fields of `fmadd.s f4, f1, f2, f3` (95_test_vectors.md section 2). -/
theorem test_fields : Field.rd 0x1820F243 = 4 ∧ Field.rs1 0x1820F243 = 1 ∧ Field.rs2 0x1820F243 = 2 ∧
    Field.rs3 0x1820F243 = 3 ∧ Field.funct3 0x1820F243 = 7 ∧ Field.funct7 0x1820F243 = 12 ∧
    Field.fmt 0x1820F243 = 0 := by decide

/-- A word BITMANIP_SELECT takes, where no row does (R104). -/
theorem test_decode_bitmanip :
    decode (params .stub [⟨0x7F, 0x0B⟩]) 0x0000000B = some (.bitmanipGroup 0x0000000B) ∧
    decode (params .stub [⟨0x7F, 0x33⟩]) 0x007302B3 = some (.add 5 6 7) ∧
    decode (params .stub []) 0x0000000B = none := by decide +kernel

/-- upper immediates (R132, R133): each word in the fields its rule gives. -/
theorem test_decode_upper : readsAll [
    (0b10000000000000000001#20 ++ 0b00101#5 ++ 0b0110111#7, .lui 5 0x80001),
    (0b10000000000000000001#20 ++ 0b00101#5 ++ 0b0010111#7, .auipc 5 0x80001)] = true := by decide +kernel

/-- OP-IMM (R134 to R142): each word in the fields its rule gives. -/
theorem test_decode_opImm : readsAll [
    (0b100000000011#12 ++ 0b00110#5 ++ 0b000#3 ++ 0b00101#5 ++ 0b0010011#7, .addi 5 6 (-2045)),
    (0b100000000011#12 ++ 0b00110#5 ++ 0b010#3 ++ 0b00101#5 ++ 0b0010011#7, .slti 5 6 (-2045)),
    (0b100000000011#12 ++ 0b00110#5 ++ 0b011#3 ++ 0b00101#5 ++ 0b0010011#7, .sltiu 5 6 (-2045)),
    (0b100000000011#12 ++ 0b00110#5 ++ 0b100#3 ++ 0b00101#5 ++ 0b0010011#7, .xori 5 6 (-2045)),
    (0b100000000011#12 ++ 0b00110#5 ++ 0b110#3 ++ 0b00101#5 ++ 0b0010011#7, .ori 5 6 (-2045)),
    (0b100000000011#12 ++ 0b00110#5 ++ 0b111#3 ++ 0b00101#5 ++ 0b0010011#7, .andi 5 6 (-2045)),
    (0b0000000#7 ++ 0b10011#5 ++ 0b00110#5 ++ 0b001#3 ++ 0b00101#5 ++ 0b0010011#7, .slli 5 6 19),
    (0b0000000#7 ++ 0b10011#5 ++ 0b00110#5 ++ 0b101#3 ++ 0b00101#5 ++ 0b0010011#7, .srli 5 6 19),
    (0b0100000#7 ++ 0b10011#5 ++ 0b00110#5 ++ 0b101#3 ++ 0b00101#5 ++ 0b0010011#7, .srai 5 6 19)] = true := by decide +kernel

/-- OP, base part (R143 to R152): each word in the fields its rule gives. -/
theorem test_decode_op : readsAll [
    (0b0000000#7 ++ 0b00111#5 ++ 0b00110#5 ++ 0b000#3 ++ 0b00101#5 ++ 0b0110011#7, .add 5 6 7),
    (0b0100000#7 ++ 0b00111#5 ++ 0b00110#5 ++ 0b000#3 ++ 0b00101#5 ++ 0b0110011#7, .sub 5 6 7),
    (0b0000000#7 ++ 0b00111#5 ++ 0b00110#5 ++ 0b001#3 ++ 0b00101#5 ++ 0b0110011#7, .sll 5 6 7),
    (0b0000000#7 ++ 0b00111#5 ++ 0b00110#5 ++ 0b010#3 ++ 0b00101#5 ++ 0b0110011#7, .slt 5 6 7),
    (0b0000000#7 ++ 0b00111#5 ++ 0b00110#5 ++ 0b011#3 ++ 0b00101#5 ++ 0b0110011#7, .sltu 5 6 7),
    (0b0000000#7 ++ 0b00111#5 ++ 0b00110#5 ++ 0b100#3 ++ 0b00101#5 ++ 0b0110011#7, .xor 5 6 7),
    (0b0000000#7 ++ 0b00111#5 ++ 0b00110#5 ++ 0b101#3 ++ 0b00101#5 ++ 0b0110011#7, .srl 5 6 7),
    (0b0100000#7 ++ 0b00111#5 ++ 0b00110#5 ++ 0b101#3 ++ 0b00101#5 ++ 0b0110011#7, .sra 5 6 7),
    (0b0000000#7 ++ 0b00111#5 ++ 0b00110#5 ++ 0b110#3 ++ 0b00101#5 ++ 0b0110011#7, .or 5 6 7),
    (0b0000000#7 ++ 0b00111#5 ++ 0b00110#5 ++ 0b111#3 ++ 0b00101#5 ++ 0b0110011#7, .and 5 6 7)] = true := by decide +kernel

/-- OP, multiply and divide (R161 to R168): each word in the fields its rule gives. -/
theorem test_decode_mulDiv : readsAll [
    (0b0000001#7 ++ 0b00111#5 ++ 0b00110#5 ++ 0b000#3 ++ 0b00101#5 ++ 0b0110011#7, .mul 5 6 7),
    (0b0000001#7 ++ 0b00111#5 ++ 0b00110#5 ++ 0b001#3 ++ 0b00101#5 ++ 0b0110011#7, .mulh 5 6 7),
    (0b0000001#7 ++ 0b00111#5 ++ 0b00110#5 ++ 0b010#3 ++ 0b00101#5 ++ 0b0110011#7, .mulhsu 5 6 7),
    (0b0000001#7 ++ 0b00111#5 ++ 0b00110#5 ++ 0b011#3 ++ 0b00101#5 ++ 0b0110011#7, .mulhu 5 6 7),
    (0b0000001#7 ++ 0b00111#5 ++ 0b00110#5 ++ 0b100#3 ++ 0b00101#5 ++ 0b0110011#7, .div 5 6 7),
    (0b0000001#7 ++ 0b00111#5 ++ 0b00110#5 ++ 0b101#3 ++ 0b00101#5 ++ 0b0110011#7, .divu 5 6 7),
    (0b0000001#7 ++ 0b00111#5 ++ 0b00110#5 ++ 0b110#3 ++ 0b00101#5 ++ 0b0110011#7, .rem 5 6 7),
    (0b0000001#7 ++ 0b00111#5 ++ 0b00110#5 ++ 0b111#3 ++ 0b00101#5 ++ 0b0110011#7, .remu 5 6 7)] = true := by decide +kernel

/-- LOAD (R171 to R175): each word in the fields its rule gives. -/
theorem test_decode_load : readsAll [
    (0b100000000011#12 ++ 0b00110#5 ++ 0b000#3 ++ 0b00101#5 ++ 0b0000011#7, .lb 5 6 (-2045)),
    (0b100000000011#12 ++ 0b00110#5 ++ 0b001#3 ++ 0b00101#5 ++ 0b0000011#7, .lh 5 6 (-2045)),
    (0b100000000011#12 ++ 0b00110#5 ++ 0b010#3 ++ 0b00101#5 ++ 0b0000011#7, .lw 5 6 (-2045)),
    (0b100000000011#12 ++ 0b00110#5 ++ 0b100#3 ++ 0b00101#5 ++ 0b0000011#7, .lbu 5 6 (-2045)),
    (0b100000000011#12 ++ 0b00110#5 ++ 0b101#3 ++ 0b00101#5 ++ 0b0000011#7, .lhu 5 6 (-2045))] = true := by decide +kernel

/-- STORE (R176 to R178): each word in the fields its rule gives. -/
theorem test_decode_store : readsAll [
    (0b1000001#7 ++ 0b00111#5 ++ 0b00110#5 ++ 0b000#3 ++ 0b00010#5 ++ 0b0100011#7, .sb 6 7 (-2014)),
    (0b1000001#7 ++ 0b00111#5 ++ 0b00110#5 ++ 0b001#3 ++ 0b00010#5 ++ 0b0100011#7, .sh 6 7 (-2014)),
    (0b1000001#7 ++ 0b00111#5 ++ 0b00110#5 ++ 0b010#3 ++ 0b00010#5 ++ 0b0100011#7, .sw 6 7 (-2014))] = true := by decide +kernel

/-- BRANCH, JAL, JALR (R182 to R189): each word in the fields its rule gives. -/
theorem test_decode_control : readsAll [
    (0b1#1 ++ 0b000001#6 ++ 0b00111#5 ++ 0b00110#5 ++ 0b000#3 ++ 0b0010#4 ++ 0b1#1 ++ 0b1100011#7, .beq 6 7 (-2012)),
    (0b1#1 ++ 0b000001#6 ++ 0b00111#5 ++ 0b00110#5 ++ 0b001#3 ++ 0b0010#4 ++ 0b1#1 ++ 0b1100011#7, .bne 6 7 (-2012)),
    (0b1#1 ++ 0b000001#6 ++ 0b00111#5 ++ 0b00110#5 ++ 0b100#3 ++ 0b0010#4 ++ 0b1#1 ++ 0b1100011#7, .blt 6 7 (-2012)),
    (0b1#1 ++ 0b000001#6 ++ 0b00111#5 ++ 0b00110#5 ++ 0b101#3 ++ 0b0010#4 ++ 0b1#1 ++ 0b1100011#7, .bge 6 7 (-2012)),
    (0b1#1 ++ 0b000001#6 ++ 0b00111#5 ++ 0b00110#5 ++ 0b110#3 ++ 0b0010#4 ++ 0b1#1 ++ 0b1100011#7, .bltu 6 7 (-2012)),
    (0b1#1 ++ 0b000001#6 ++ 0b00111#5 ++ 0b00110#5 ++ 0b111#3 ++ 0b0010#4 ++ 0b1#1 ++ 0b1100011#7, .bgeu 6 7 (-2012)),
    (0b1#1 ++ 0b0000000001#10 ++ 0b1#1 ++ 0b00000001#8 ++ 0b00101#5 ++ 0b1101111#7, .jal 5 (-0xFE7FE)),
    (0b100000000011#12 ++ 0b00110#5 ++ 0b000#3 ++ 0b00101#5 ++ 0b1100111#7, .jalr 5 6 (-2045))] = true := by decide +kernel

/-- SYSTEM and the hook groups (R197 to R201): each word in the fields its rule gives. -/
theorem test_decode_system : readsAll [
    (0b000000000000#12 ++ 0b00000#5 ++ 0b000#3 ++ 0b00000#5 ++ 0b1110011#7, .ecall),
    (0b000000000001#12 ++ 0b00000#5 ++ 0b000#3 ++ 0b00000#5 ++ 0b1110011#7, .ebreak),
    (0b0001000#7 ++ 0b00111#5 ++ 0b00110#5 ++ 0b010#3 ++ 0b00101#5 ++ 0b0101111#7, .atomicGroup 5 6 7 0b010 0b0001000)] = true := by decide +kernel

/-- LOAD-FP and STORE-FP (R207, R208, R241, R242): each word in the fields its rule gives. -/
theorem test_decode_floatMem : readsAll [
    (0b100000000011#12 ++ 0b00110#5 ++ 0b010#3 ++ 0b00101#5 ++ 0b0000111#7, .flw 5 6 (-2045)),
    (0b1000001#7 ++ 0b00111#5 ++ 0b00110#5 ++ 0b010#3 ++ 0b00010#5 ++ 0b0100111#7, .fsw 6 7 (-2014)),
    (0b100000000011#12 ++ 0b00110#5 ++ 0b011#3 ++ 0b00101#5 ++ 0b0000111#7, .fld 5 6 (-2045)),
    (0b1000001#7 ++ 0b00111#5 ++ 0b00110#5 ++ 0b011#3 ++ 0b00010#5 ++ 0b0100111#7, .fsd 6 7 (-2014))] = true := by decide +kernel

/-- OP-FP, single precision (R209 to R227): each word in the fields its rule gives. -/
theorem test_decode_floatS_1 : readsAll [
    (0b0000000#7 ++ 0b00111#5 ++ 0b00110#5 ++ 0b101#3 ++ 0b00101#5 ++ 0b1010011#7, .faddS 5 6 7 0b101),
    (0b0000100#7 ++ 0b00111#5 ++ 0b00110#5 ++ 0b101#3 ++ 0b00101#5 ++ 0b1010011#7, .fsubS 5 6 7 0b101),
    (0b0001000#7 ++ 0b00111#5 ++ 0b00110#5 ++ 0b101#3 ++ 0b00101#5 ++ 0b1010011#7, .fmulS 5 6 7 0b101),
    (0b0001100#7 ++ 0b00111#5 ++ 0b00110#5 ++ 0b101#3 ++ 0b00101#5 ++ 0b1010011#7, .fdivS 5 6 7 0b101),
    (0b0101100#7 ++ 0b00000#5 ++ 0b00110#5 ++ 0b101#3 ++ 0b00101#5 ++ 0b1010011#7, .fsqrtS 5 6 0b101),
    (0b0010000#7 ++ 0b00111#5 ++ 0b00110#5 ++ 0b000#3 ++ 0b00101#5 ++ 0b1010011#7, .fsgnjS 5 6 7),
    (0b0010000#7 ++ 0b00111#5 ++ 0b00110#5 ++ 0b001#3 ++ 0b00101#5 ++ 0b1010011#7, .fsgnjnS 5 6 7),
    (0b0010000#7 ++ 0b00111#5 ++ 0b00110#5 ++ 0b010#3 ++ 0b00101#5 ++ 0b1010011#7, .fsgnjxS 5 6 7),
    (0b0010100#7 ++ 0b00111#5 ++ 0b00110#5 ++ 0b000#3 ++ 0b00101#5 ++ 0b1010011#7, .fminS 5 6 7),
    (0b0010100#7 ++ 0b00111#5 ++ 0b00110#5 ++ 0b001#3 ++ 0b00101#5 ++ 0b1010011#7, .fmaxS 5 6 7)] = true := by decide +kernel

/-- OP-FP, single precision (R209 to R227): each word in the fields its rule gives. -/
theorem test_decode_floatS_2 : readsAll [
    (0b1100000#7 ++ 0b00000#5 ++ 0b00110#5 ++ 0b101#3 ++ 0b00101#5 ++ 0b1010011#7, .fcvtWS 5 6 0b101),
    (0b1100000#7 ++ 0b00001#5 ++ 0b00110#5 ++ 0b101#3 ++ 0b00101#5 ++ 0b1010011#7, .fcvtWuS 5 6 0b101),
    (0b1110000#7 ++ 0b00000#5 ++ 0b00110#5 ++ 0b000#3 ++ 0b00101#5 ++ 0b1010011#7, .fmvXW 5 6),
    (0b1010000#7 ++ 0b00111#5 ++ 0b00110#5 ++ 0b010#3 ++ 0b00101#5 ++ 0b1010011#7, .feqS 5 6 7),
    (0b1010000#7 ++ 0b00111#5 ++ 0b00110#5 ++ 0b001#3 ++ 0b00101#5 ++ 0b1010011#7, .fltS 5 6 7),
    (0b1010000#7 ++ 0b00111#5 ++ 0b00110#5 ++ 0b000#3 ++ 0b00101#5 ++ 0b1010011#7, .fleS 5 6 7),
    (0b1101000#7 ++ 0b00000#5 ++ 0b00110#5 ++ 0b101#3 ++ 0b00101#5 ++ 0b1010011#7, .fcvtSW 5 6 0b101),
    (0b1101000#7 ++ 0b00001#5 ++ 0b00110#5 ++ 0b101#3 ++ 0b00101#5 ++ 0b1010011#7, .fcvtSWu 5 6 0b101),
    (0b1111000#7 ++ 0b00000#5 ++ 0b00110#5 ++ 0b000#3 ++ 0b00101#5 ++ 0b1010011#7, .fmvWX 5 6)] = true := by decide +kernel

/-- fused, single precision (R229 to R232): each word in the fields its rule gives. -/
theorem test_decode_fusedS : readsAll [
    (0b11110#5 ++ 0b00#2 ++ 0b00111#5 ++ 0b00110#5 ++ 0b101#3 ++ 0b00101#5 ++ 0b1000011#7, .fmaddS 5 6 7 30 0b101),
    (0b11110#5 ++ 0b00#2 ++ 0b00111#5 ++ 0b00110#5 ++ 0b101#3 ++ 0b00101#5 ++ 0b1000111#7, .fmsubS 5 6 7 30 0b101),
    (0b11110#5 ++ 0b00#2 ++ 0b00111#5 ++ 0b00110#5 ++ 0b101#3 ++ 0b00101#5 ++ 0b1001011#7, .fnmsubS 5 6 7 30 0b101),
    (0b11110#5 ++ 0b00#2 ++ 0b00111#5 ++ 0b00110#5 ++ 0b101#3 ++ 0b00101#5 ++ 0b1001111#7, .fnmaddS 5 6 7 30 0b101)] = true := by decide +kernel

/-- OP-FP, double-precision stubs (R243 to R262): each word in the fields its rule gives. -/
theorem test_decode_floatD_1 : readsAll [
    (0b0000001#7 ++ 0b00111#5 ++ 0b00110#5 ++ 0b101#3 ++ 0b00101#5 ++ 0b1010011#7, .faddD 5 6 7 0b101),
    (0b0000101#7 ++ 0b00111#5 ++ 0b00110#5 ++ 0b101#3 ++ 0b00101#5 ++ 0b1010011#7, .fsubD 5 6 7 0b101),
    (0b0001001#7 ++ 0b00111#5 ++ 0b00110#5 ++ 0b101#3 ++ 0b00101#5 ++ 0b1010011#7, .fmulD 5 6 7 0b101),
    (0b0001101#7 ++ 0b00111#5 ++ 0b00110#5 ++ 0b101#3 ++ 0b00101#5 ++ 0b1010011#7, .fdivD 5 6 7 0b101),
    (0b0101101#7 ++ 0b00000#5 ++ 0b00110#5 ++ 0b101#3 ++ 0b00101#5 ++ 0b1010011#7, .fsqrtD 5 6 0b101),
    (0b0010001#7 ++ 0b00111#5 ++ 0b00110#5 ++ 0b000#3 ++ 0b00101#5 ++ 0b1010011#7, .fsgnjD 5 6 7),
    (0b0010001#7 ++ 0b00111#5 ++ 0b00110#5 ++ 0b001#3 ++ 0b00101#5 ++ 0b1010011#7, .fsgnjnD 5 6 7),
    (0b0010001#7 ++ 0b00111#5 ++ 0b00110#5 ++ 0b010#3 ++ 0b00101#5 ++ 0b1010011#7, .fsgnjxD 5 6 7),
    (0b0010101#7 ++ 0b00111#5 ++ 0b00110#5 ++ 0b000#3 ++ 0b00101#5 ++ 0b1010011#7, .fminD 5 6 7),
    (0b0010101#7 ++ 0b00111#5 ++ 0b00110#5 ++ 0b001#3 ++ 0b00101#5 ++ 0b1010011#7, .fmaxD 5 6 7)] = true := by decide +kernel

/-- OP-FP, double-precision stubs (R243 to R262): each word in the fields its rule gives. -/
theorem test_decode_floatD_2 : readsAll [
    (0b0100000#7 ++ 0b00001#5 ++ 0b00110#5 ++ 0b101#3 ++ 0b00101#5 ++ 0b1010011#7, .fcvtSD 5 6 0b101),
    (0b0100001#7 ++ 0b00000#5 ++ 0b00110#5 ++ 0b101#3 ++ 0b00101#5 ++ 0b1010011#7, .fcvtDS 5 6 0b101),
    (0b1010001#7 ++ 0b00111#5 ++ 0b00110#5 ++ 0b010#3 ++ 0b00101#5 ++ 0b1010011#7, .feqD 5 6 7),
    (0b1010001#7 ++ 0b00111#5 ++ 0b00110#5 ++ 0b001#3 ++ 0b00101#5 ++ 0b1010011#7, .fltD 5 6 7),
    (0b1010001#7 ++ 0b00111#5 ++ 0b00110#5 ++ 0b000#3 ++ 0b00101#5 ++ 0b1010011#7, .fleD 5 6 7),
    (0b1110001#7 ++ 0b00000#5 ++ 0b00110#5 ++ 0b001#3 ++ 0b00101#5 ++ 0b1010011#7, .fclassD 5 6),
    (0b1100001#7 ++ 0b00000#5 ++ 0b00110#5 ++ 0b101#3 ++ 0b00101#5 ++ 0b1010011#7, .fcvtWD 5 6 0b101),
    (0b1100001#7 ++ 0b00001#5 ++ 0b00110#5 ++ 0b101#3 ++ 0b00101#5 ++ 0b1010011#7, .fcvtWuD 5 6 0b101),
    (0b1101001#7 ++ 0b00000#5 ++ 0b00110#5 ++ 0b101#3 ++ 0b00101#5 ++ 0b1010011#7, .fcvtDW 5 6 0b101),
    (0b1101001#7 ++ 0b00001#5 ++ 0b00110#5 ++ 0b101#3 ++ 0b00101#5 ++ 0b1010011#7, .fcvtDWu 5 6 0b101)] = true := by decide +kernel

/-- fused, double-precision stubs (R263 to R266): each word in the fields its rule gives. -/
theorem test_decode_fusedD : readsAll [
    (0b11110#5 ++ 0b01#2 ++ 0b00111#5 ++ 0b00110#5 ++ 0b101#3 ++ 0b00101#5 ++ 0b1000011#7, .fmaddD 5 6 7 30 0b101),
    (0b11110#5 ++ 0b01#2 ++ 0b00111#5 ++ 0b00110#5 ++ 0b101#3 ++ 0b00101#5 ++ 0b1000111#7, .fmsubD 5 6 7 30 0b101),
    (0b11110#5 ++ 0b01#2 ++ 0b00111#5 ++ 0b00110#5 ++ 0b101#3 ++ 0b00101#5 ++ 0b1001011#7, .fnmsubD 5 6 7 30 0b101),
    (0b11110#5 ++ 0b01#2 ++ 0b00111#5 ++ 0b00110#5 ++ 0b101#3 ++ 0b00101#5 ++ 0b1001111#7, .fnmaddD 5 6 7 30 0b101)] = true := by decide +kernel

/-! ### One step (95_test_vectors.md) -/

/-- V2: `lui x5, 0xFFFFF`. -/
theorem test_lui : ends (start 0xFFFFF2B7)
    (fun t => t.readX 5 == 0xFFFFF000) = true := by decide +kernel

/-- V4: `auipc x5, 0xFFFFF`. -/
theorem test_auipc : ends (start 0xFFFFF297)
    (fun t => t.readX 5 == 0x0000F010) = true := by decide +kernel

/-- V6: `addi x5, x6, 1`. -/
theorem test_addi_wraps : ends ((start 0x00130293).pokeX 6 0x7FFFFFFF)
    (fun t => t.readX 5 == 0x80000000) = true := by decide +kernel

/-- V7: `addi x0, x6, 7`. -/
theorem test_addi_x0 : ends ((start 0x00730013).pokeX 6 0x00000001)
    (fun t => t.pc == 0x00010014) = true := by decide +kernel

/-- V8: `slti x5, x6, -1`. -/
theorem test_slti : ends ((start 0xFFF32293).pokeX 6 0xFFFFFFFE)
    (fun t => t.readX 5 == 0x00000001) = true := by decide +kernel

/-- V10: `sltiu x5, x6, -1`. -/
theorem test_sltiu : ends ((start 0xFFF33293).pokeX 6 0xFFFFFFFF)
    (fun t => t.readX 5 == 0x00000000) = true := by decide +kernel

/-- V12: `xori x5, x6, -1`. -/
theorem test_xori : ends ((start 0xFFF34293).pokeX 6 0x0F0F0F0F)
    (fun t => t.readX 5 == 0xF0F0F0F0) = true := by decide +kernel

/-- V13: `ori x5, x6, 0x7FF`. -/
theorem test_ori : ends ((start 0x7FF36293).pokeX 6 0x12345000)
    (fun t => t.readX 5 == 0x123457FF) = true := by decide +kernel

/-- V14: `andi x5, x6, -16`. -/
theorem test_andi : ends ((start 0xFF037293).pokeX 6 0x12345678)
    (fun t => t.readX 5 == 0x12345670) = true := by decide +kernel

/-- V15: `slli x5, x6, 31`. -/
theorem test_slli : ends ((start 0x01F31293).pokeX 6 0x00000003)
    (fun t => t.readX 5 == 0x80000000) = true := by decide +kernel

/-- V16: `srli x5, x6, 31`. -/
theorem test_srli : ends ((start 0x01F35293).pokeX 6 0x80000000)
    (fun t => t.readX 5 == 0x00000001) = true := by decide +kernel

/-- V17: `srai x5, x6, 4`. -/
theorem test_srai : ends ((start 0x40435293).pokeX 6 0x80000000)
    (fun t => t.readX 5 == 0xF8000000) = true := by decide +kernel

/-- V19: `add x5, x6, x7`. -/
theorem test_add : ends (((start 0x007302B3).pokeX 6 0xFFFFFFFF).pokeX 7 0x00000001)
    (fun t => t.readX 5 == 0x00000000) = true := by decide +kernel

/-- V21: `add x5, x0, x0`. -/
theorem test_add_reads_x0 : ends ((start 0x000002B3).pokeX 0 0x00000005)
    (fun t => t.readX 5 == 0x0000000A) = true := by decide +kernel

/-- V23: `sub x5, x6, x7`. -/
theorem test_sub : ends (((start 0x407302B3).pokeX 6 0x80000000).pokeX 7 0x00000001)
    (fun t => t.readX 5 == 0x7FFFFFFF) = true := by decide +kernel

/-- V24: `sll x5, x6, x7`. -/
theorem test_sll_masks : ends (((start 0x007312B3).pokeX 6 0x00000001).pokeX 7 0x00000021)
    (fun t => t.readX 5 == 0x00000002) = true := by decide +kernel

/-- V25: `slt x5, x6, x7`. -/
theorem test_slt : ends (((start 0x007322B3).pokeX 6 0xFFFFFFFF).pokeX 7 0x00000001)
    (fun t => t.readX 5 == 0x00000001) = true := by decide +kernel

/-- V26: `sltu x5, x6, x7`. -/
theorem test_sltu : ends (((start 0x007332B3).pokeX 6 0xFFFFFFFF).pokeX 7 0x00000001)
    (fun t => t.readX 5 == 0x00000000) = true := by decide +kernel

/-- V28: `xor x5, x6, x7`. -/
theorem test_xor : ends (((start 0x007342B3).pokeX 6 0xFF00FF00).pokeX 7 0x0FF00FF0)
    (fun t => t.readX 5 == 0xF0F0F0F0) = true := by decide +kernel

/-- V29: `srl x5, x6, x7`. -/
theorem test_srl : ends (((start 0x007352B3).pokeX 6 0x80000000).pokeX 7 0x00000024)
    (fun t => t.readX 5 == 0x08000000) = true := by decide +kernel

/-- V30: `sra x5, x6, x7`. -/
theorem test_sra : ends (((start 0x407352B3).pokeX 6 0x80000000).pokeX 7 0x00000024)
    (fun t => t.readX 5 == 0xF8000000) = true := by decide +kernel

/-- V32: `or x5, x6, x7`. -/
theorem test_or : ends (((start 0x007362B3).pokeX 6 0xFF00FF00).pokeX 7 0x0FF00FF0)
    (fun t => t.readX 5 == 0xFFF0FFF0) = true := by decide +kernel

/-- V33: `and x5, x6, x7`. -/
theorem test_and : ends (((start 0x007372B3).pokeX 6 0xFF00FF00).pokeX 7 0x0FF00FF0)
    (fun t => t.readX 5 == 0x0F000F00) = true := by decide +kernel

/-- V37: `mul x5, x6, x7`. -/
theorem test_mul : ends (((start 0x027302B3).pokeX 6 0x00012345).pokeX 7 0x00006789)
    (fun t => t.readX 5 == 0x75CCA2ED) = true := by decide +kernel

/-- V40: `mulh x5, x6, x7`. -/
theorem test_mulh : ends (((start 0x027312B3).pokeX 6 0x80000000).pokeX 7 0x00000001)
    (fun t => t.readX 5 == 0xFFFFFFFF) = true := by decide +kernel

/-- V41: `mulhsu x5, x6, x7`. -/
theorem test_mulhsu : ends (((start 0x027322B3).pokeX 6 0xFFFFFFFF).pokeX 7 0xFFFFFFFF)
    (fun t => t.readX 5 == 0xFFFFFFFF) = true := by decide +kernel

/-- V43: `mulhu x5, x6, x7`. -/
theorem test_mulhu : ends (((start 0x027332B3).pokeX 6 0xFFFFFFFF).pokeX 7 0xFFFFFFFF)
    (fun t => t.readX 5 == 0xFFFFFFFE) = true := by decide +kernel

/-- V46: `div x5, x6, x7`. -/
theorem test_div_by_zero : ends (((start 0x027342B3).pokeX 6 0x0000002A).pokeX 7 0x00000000)
    (fun t => t.readX 5 == 0x00000000) = true := by decide +kernel

/-- V47: `div x5, x6, x7`. -/
theorem test_div_overflow : ends (((start 0x027342B3).pokeX 6 0x80000000).pokeX 7 0xFFFFFFFF)
    (fun t => t.readX 5 == 0x80000000) = true := by decide +kernel

/-- V48: `divu x5, x6, x7`. -/
theorem test_divu : ends (((start 0x027352B3).pokeX 6 0xFFFFFFFF).pokeX 7 0x00000002)
    (fun t => t.readX 5 == 0x7FFFFFFF) = true := by decide +kernel

/-- V49: `divu x5, x6, x7`. -/
theorem test_divu_by_zero : ends (((start 0x027352B3).pokeX 6 0x0000002A).pokeX 7 0x00000000)
    (fun t => t.readX 5 == 0x00000000) = true := by decide +kernel

/-- V50: `rem x5, x6, x7`. -/
theorem test_rem_sign : ends (((start 0x027362B3).pokeX 6 0xFFFFFFF9).pokeX 7 0x00000002)
    (fun t => t.readX 5 == 0xFFFFFFFF) = true := by decide +kernel

/-- V52: `rem x5, x6, x7`. -/
theorem test_rem_by_zero : ends (((start 0x027362B3).pokeX 6 0x0000002A).pokeX 7 0x00000000)
    (fun t => t.readX 5 == 0x00000000) = true := by decide +kernel

/-- V54: `remu x5, x6, x7`. -/
theorem test_remu : ends (((start 0x027372B3).pokeX 6 0xFFFFFFFF).pokeX 7 0x0000000A)
    (fun t => t.readX 5 == 0x00000005) = true := by decide +kernel

/-- V55: `remu x5, x6, x7`. -/
theorem test_remu_by_zero : ends (((start 0x027372B3).pokeX 6 0x0000002A).pokeX 7 0x00000000)
    (fun t => t.readX 5 == 0x00000000) = true := by decide +kernel

/-- V57: `lb x5, -1(x6)`. -/
theorem test_lb : ends (put (put ((start 0xFFF30283).pokeX 6 0x00001000) 0xFFF [0x80]) 0x1000 [0x65, 0x87, 0x0D, 0xF0, 0x11])
    (fun t => t.readX 5 == 0xFFFFFF80) = true := by decide +kernel

/-- V60: `lh x5, 2(x6)`. -/
theorem test_lh : ends (put (put ((start 0x00231283).pokeX 6 0x00001000) 0xFFF [0x80]) 0x1000 [0x65, 0x87, 0x0D, 0xF0, 0x11])
    (fun t => t.readX 5 == 0xFFFFF00D) = true := by decide +kernel

/-- V63: `lw x5, 1(x6)`. -/
theorem test_lw_misaligned : ends (put (put ((start 0x00132283).pokeX 6 0x00001000) 0xFFF [0x80]) 0x1000 [0x65, 0x87, 0x0D, 0xF0, 0x11])
    (fun t => t.readX 5 == 0x11F00D87) = true := by decide +kernel

/-- V70: `lw x5, 4(x0)`. -/
theorem test_lw_skipped : ends ((start 0x00402283).pokeX 5 0xAAAAAAAA)
    (fun t => t.pc == 0x00010014 && t.readX 5 == 0xAAAAAAAA) = true := by decide +kernel

/-- V58: `lbu x5, -1(x6)`. -/
theorem test_lbu : ends (put (put ((start 0xFFF34283).pokeX 6 0x00001000) 0xFFF [0x80]) 0x1000 [0x65, 0x87, 0x0D, 0xF0, 0x11])
    (fun t => t.readX 5 == 0x00000080) = true := by decide +kernel

/-- V83: `lhu x5, 2(x6)`. -/
theorem test_lhu_slot : ends ((mapped (start 0x00235283) [0x78, 0x56, 0x34, 0x12]).pokeX 6 0x80000000)
    (fun t => t.readX 5 == 0x00001234) = true := by decide +kernel

/-- V68: `sb x7, -1(x6)`. -/
theorem test_sb : ends (((start 0xFE730FA3).pokeX 6 0x00001000).pokeX 7 0x12345678)
    (fun t => (t.memRead 0xFFF 1 == .done 0x78)) = true := by decide +kernel

/-- V67: `sh x7, 2(x6)`. -/
theorem test_sh : ends (((start 0x00731123).pokeX 6 0x00001000).pokeX 7 0x12345678)
    (fun t => (t.memRead 0x1002 2 == .done 0x5678)) = true := by decide +kernel

/-- V76: `sw x7, 4(x6)`. -/
theorem test_sw_code : ends (put (((start 0x00732223).pokeX 6 0x00010010).pokeX 7 0x00100073) 0x10014 [0x13, 0xFF, 0xFF, 0xFF])
    (fun t => (t.memRead 0x10014 4 == .done 0x00100073)) = true := by decide +kernel

/-- V79: `sw x7, 4(x6)`. -/
theorem test_sw_slot : ends (((mapped (start 0x00732223) []).pokeX 6 0x80000000).pokeX 7 0x12345678)
    (fun t => (t.memRead (0x80000000 + 0x4) 4 == .done 0x12345678)) = true := by decide +kernel

/-- V74: `lw x5, -2(x6)`. -/
theorem test_lw_overrun : refuses .accessOverrun (put ((start 0xFFE32283).pokeX 6 0x00010000) 0xFFFE [0x01, 0x02]) = true := by decide +kernel

/-- V82: `lw x5, 0(x6)`. -/
theorem test_slot_inactive : ends (((mapped (start 0x00032283) []).pokeX 5 0xAAAAAAAA).pokeX 6 0x80100000)
    (fun t => t.pc == 0x00010014 && t.readX 5 == 0xAAAAAAAA) = true := by decide +kernel

/-- V84: `beq x6, x7, -8`. -/
theorem test_beq_taken : ends (((start 0xFE730CE3).pokeX 6 0x00000005).pokeX 7 0x00000005)
    (fun t => t.pc == 0x00010008 && t.status == 0b10000) = true := by decide +kernel

/-- V85: `beq x6, x7, -8`. -/
theorem test_beq_not_taken : ends (((start 0xFE730CE3).pokeX 6 0x00000005).pokeX 7 0x00000006)
    (fun t => t.pc == 0x00010014) = true := by decide +kernel

/-- V86: `bne x6, x7, 16`. -/
theorem test_bne : ends (((start 0x00731863).pokeX 6 0x00000005).pokeX 7 0x00000006)
    (fun t => t.pc == 0x00010020 && t.status == 0b10000) = true := by decide +kernel

/-- V87: `blt x6, x7, 8`. -/
theorem test_blt : ends (((start 0x00734463).pokeX 6 0xFFFFFFFF).pokeX 7 0x00000001)
    (fun t => t.pc == 0x00010018 && t.status == 0b10000) = true := by decide +kernel

/-- V90: `bge x6, x7, 8`. -/
theorem test_bge : ends (((start 0x00735463).pokeX 6 0xFFFFFFFF).pokeX 7 0x00000000)
    (fun t => t.pc == 0x00010014) = true := by decide +kernel

/-- V88: `bltu x6, x7, 8`. -/
theorem test_bltu : ends (((start 0x00736463).pokeX 6 0xFFFFFFFF).pokeX 7 0x00000001)
    (fun t => t.pc == 0x00010014) = true := by decide +kernel

/-- V92: `bgeu x6, x7, 8`. -/
theorem test_bgeu : ends (((start 0x00737463).pokeX 6 0xFFFFFFFF).pokeX 7 0x00000000)
    (fun t => t.pc == 0x00010018 && t.status == 0b10000) = true := by decide +kernel

/-- V94: `jal x0, 8`. -/
theorem test_jal_x0 : ends (start 0x0080006F)
    (fun t => t.pc == 0x00010018 && t.status == 0b00010) = true := by decide +kernel

/-- V95: `jal x1, -16`. -/
theorem test_jal_back : ends (start 0xFF1FF0EF)
    (fun t => t.readX 1 == 0x00010014 && t.pc == 0x00010000 && t.status == 0b00010) = true := by decide +kernel

/-- V98: `jalr x1, 0(x1)`. -/
theorem test_jalr_same : ends ((start 0x000080E7).pokeX 1 0x00010100)
    (fun t => t.readX 1 == 0x00010014 && t.pc == 0x00010100 && t.status == 0b00100) = true := by decide +kernel

/-- V102: `ret`. -/
theorem test_jalr_ret_native : ends ((start 0x00008067).pokeX 1 0xFFFFFFF0)
    (fun t => t.pc == 0xFFFFFFF0 && t.status == 0b01101) = true := by decide +kernel

/-- V105: `jal x1, 8`. -/
theorem test_echo_only : ends ((start 0x008000EF).request false false)
    (fun t => t.pc == 0x00010014 && t.counter == 0) = true := by decide +kernel

/-- V106: `ecall`. -/
theorem test_ecall : ends (start 0x00000073)
    (fun t => t.pc == 0x00010014) = true := by decide +kernel

/-- V107: `ebreak`. -/
theorem test_ebreak : ends (start 0x00100073)
    (fun t => t.pc == 0x00010014) = true := by decide +kernel

/-- V108: `amoadd.w x5, x7, (x6)`. -/
theorem test_atomic : ends ((((start 0x007322AF).pokeX 5 0xAAAAAAAA).pokeX 6 0x00001000).pokeX 7 0x00000001)
    (fun t => t.pc == 0x00010014 && t.readX 5 == 0xAAAAAAAA) = true := by decide +kernel

/-- V110: `flw f3, 0(x6)`. -/
theorem test_flw : ends (put (withHigh ((start 0x00032187).pokeX 6 0x00001000) 3 0xDEADBEEF) 0x1000 [0x00, 0x00, 0x80, 0x3F])
    (fun t => t.readFS 3 == 0x3F800000 && (t.readFD 3).extractLsb' 32 32 == 0xDEADBEEF) = true := by decide +kernel

/-- V111: `flw f3, 0(x0)`. -/
theorem test_flw_skipped : ends ((start 0x00002187).writeFS 3 0x11111111)
    (fun t => t.pc == 0x00010014 && t.readFS 3 == 0x11111111) = true := by decide +kernel

/-- V112: `fsw f1, 0(x6)`. -/
theorem test_fsw : ends (withHigh (((start 0x00132027).pokeX 6 0x00001000).writeFS 1 0x404CCCCD) 1 0xFFFFFFFF)
    (fun t => (t.memRead 0x1000 4 == .done 0x404CCCCD)) = true := by decide +kernel

/-- V113: `fadd.s f3, f1, f2`. -/
theorem test_fadd : ends (((start 0x0020F1D3).writeFS 1 0x404CCCCD).writeFS 2 0xC0900000)
    (fun t => t.readFS 3 == 0xBFA66666) = true := by decide +kernel

/-- V116: `fadd.s f3, f1, f2`. -/
theorem test_fadd_overflow : ends (((start 0x0020F1D3).writeFS 1 0x7F7FFFFF).writeFS 2 0x7F7FFFFF)
    (fun t => t.readFS 3 == 0x7F800000) = true := by decide +kernel

/-- V118: `fsub.s f3, f1, f2`. -/
theorem test_fsub : ends (((start 0x0820F1D3).writeFS 1 0x404CCCCD).writeFS 2 0xC0900000)
    (fun t => t.readFS 3 == 0x40F66666) = true := by decide +kernel

/-- V120: `fmul.s f3, f1, f2`. -/
theorem test_fmul : ends (((start 0x1020F1D3).writeFS 1 0x404CCCCD).writeFS 2 0xC0900000)
    (fun t => t.readFS 3 == 0xC1666667) = true := by decide +kernel

/-- V121: `fmul.s f3, f1, f2`. -/
theorem test_fmul_subnormal : ends (((start 0x1020F1D3).writeFS 1 0x00800000).writeFS 2 0x3F000000)
    (fun t => t.readFS 3 == 0x00400000) = true := by decide +kernel

/-- V122: `fdiv.s f3, f1, f2`. -/
theorem test_fdiv : ends (((start 0x1820F1D3).writeFS 1 0x404CCCCD).writeFS 2 0xC0900000)
    (fun t => t.readFS 3 == 0xBF360B61) = true := by decide +kernel

/-- V126: `fsqrt.s f3, f1`. -/
theorem test_fsqrt : ends ((start 0x5800F1D3).writeFS 1 0x40000000)
    (fun t => t.readFS 3 == 0x3FB504F3) = true := by decide +kernel

/-- V127: `fsqrt.s f3, f1`. -/
theorem test_fsqrt_minus_zero : ends ((start 0x5800F1D3).writeFS 1 0x80000000)
    (fun t => t.readFS 3 == 0x80000000) = true := by decide +kernel

/-- V133: `fsgnj.s f3, f1, f2`. -/
theorem test_fsgnj_nan : ends (((start 0x202081D3).writeFS 1 0x7FC00001).writeFS 2 0x80000000)
    (fun t => t.readFS 3 == 0xFFC00001) = true := by decide +kernel

/-- V130: `fsgnjn.s f3, f1, f1`. -/
theorem test_fsgnjn : ends (((start 0x201091D3).writeFS 1 0x404CCCCD).writeFS 2 0xC0900000)
    (fun t => t.readFS 3 == 0xC04CCCCD) = true := by decide +kernel

/-- V132: `fsgnjx.s f3, f1, f2`. -/
theorem test_fsgnjx : ends (((start 0x2020A1D3).writeFS 1 0x404CCCCD).writeFS 2 0xC0900000)
    (fun t => t.readFS 3 == 0xC04CCCCD) = true := by decide +kernel

/-- V134: `fmin.s f3, f1, f2`. -/
theorem test_fmin : ends (((start 0x282081D3).writeFS 1 0x404CCCCD).writeFS 2 0xC0900000)
    (fun t => t.readFS 3 == 0xC0900000) = true := by decide +kernel

/-- V135: `fmax.s f3, f1, f2`. -/
theorem test_fmax : ends (((start 0x282091D3).writeFS 1 0x404CCCCD).writeFS 2 0xC0900000)
    (fun t => t.readFS 3 == 0x404CCCCD) = true := by decide +kernel

/-- V138: `fcvt.w.s x5, f1, rtz`. -/
theorem test_fcvt_w : ends ((start 0xC00092D3).writeFS 1 0xC0200000)
    (fun t => t.readX 5 == 0xFFFFFFFE) = true := by decide +kernel

/-- V140: `fcvt.w.s x5, f1, rtz`. -/
theorem test_fcvt_w_least : ends ((start 0xC00092D3).writeFS 1 0xCF000000)
    (fun t => t.readX 5 == 0x80000000) = true := by decide +kernel

/-- V142: `fcvt.wu.s x5, f1, rtz`. -/
theorem test_fcvt_wu : ends ((start 0xC01092D3).writeFS 1 0xBF000000)
    (fun t => t.readX 5 == 0x00000000) = true := by decide +kernel

/-- V143: `fcvt.wu.s x5, f1, rtz`. -/
theorem test_fcvt_wu_large : ends ((start 0xC01092D3).writeFS 1 0x4F32D05E)
    (fun t => t.readX 5 == 0xB2D05E00) = true := by decide +kernel

/-- V144: `fmv.x.w x5, f1`. -/
theorem test_fmv_x : ends ((start 0xE00082D3).writeFS 1 0x404CCCCD)
    (fun t => t.readX 5 == 0x404CCCCD) = true := by decide +kernel

/-- V147: `fmv.w.x f0, x6`. -/
theorem test_fmv_w_f0 : ends ((start 0xF0030053).pokeX 6 0x3F800000)
    (fun t => t.readFS 0 == 0x3F800000) = true := by decide +kernel

/-- V149: `feq.s x5, f1, f2`. -/
theorem test_feq_zeros : ends (((start 0xA020A2D3).writeFS 1 0x00000000).writeFS 2 0x80000000)
    (fun t => t.readX 5 == 0x00000001) = true := by decide +kernel

/-- V150: `feq.s x5, f1, f1`. -/
theorem test_feq_nan : ends ((start 0xA010A2D3).writeFS 1 0x7FC00000)
    (fun t => t.readX 5 == 0x00000000) = true := by decide +kernel

/-- V151: `flt.s x5, f2, f1`. -/
theorem test_flt : ends (((start 0xA01112D3).writeFS 1 0x404CCCCD).writeFS 2 0xC0900000)
    (fun t => t.readX 5 == 0x00000001) = true := by decide +kernel

/-- V154: `fle.s x5, f1, f2`. -/
theorem test_fle_nan : ends (((start 0xA02082D3).writeFS 1 0xFF800000).writeFS 2 0x7FC00000)
    (fun t => t.readX 5 == 0x00000000) = true := by decide +kernel

/-- V153: `fle.s x5, f2, f1`. -/
theorem test_fle : ends (((start 0xA01102D3).writeFS 1 0x404CCCCD).writeFS 2 0xC0900000)
    (fun t => t.readX 5 == 0x00000001) = true := by decide +kernel

/-- V155: `fcvt.s.w f3, x6`. -/
theorem test_fcvt_sw : ends ((start 0xD00371D3).pokeX 6 0xFFFFFFF9)
    (fun t => t.readFS 3 == 0xC0E00000) = true := by decide +kernel

/-- V156: `fcvt.s.w f3, x6`. -/
theorem test_fcvt_sw_rounds : ends ((start 0xD00371D3).pokeX 6 0x01000001)
    (fun t => t.readFS 3 == 0x4B800000) = true := by decide +kernel

/-- V158: `fcvt.s.wu f3, x6`. -/
theorem test_fcvt_swu : ends ((start 0xD01371D3).pokeX 6 0xFFFFFFFF)
    (fun t => t.readFS 3 == 0x4F800000) = true := by decide +kernel

/-- V160: `fmadd.s f4, f1, f2, f3`. -/
theorem test_fmadd : ends ((((start 0x1820F243).writeFS 1 0x3FC00000).writeFS 2 0x40000000).writeFS 3 0x3E800000)
    (fun t => t.readFS 4 == 0x40500000) = true := by decide +kernel

/-- V164: `fmadd.s f4, f1, f2, f3`. -/
theorem test_fmadd_one : ends ((((start 0x1820F243).writeFS 1 0x3F800001).writeFS 2 0x3F800001).writeFS 3 0xBF800002)
    (fun t => t.readFS 4 == 0x28800000) = true := by decide +kernel

/-- V161: `fmsub.s f4, f1, f2, f3`. -/
theorem test_fmsub : ends ((((start 0x1820F247).writeFS 1 0x3FC00000).writeFS 2 0x40000000).writeFS 3 0x3E800000)
    (fun t => t.readFS 4 == 0x40300000) = true := by decide +kernel

/-- V162: `fnmsub.s f4, f1, f2, f3`. -/
theorem test_fnmsub : ends ((((start 0x1820F24B).writeFS 1 0x3FC00000).writeFS 2 0x40000000).writeFS 3 0x3E800000)
    (fun t => t.readFS 4 == 0xC0300000) = true := by decide +kernel

/-- V163: `fnmadd.s f4, f1, f2, f3`. -/
theorem test_fnmadd : ends ((((start 0x1820F24F).writeFS 1 0x3FC00000).writeFS 2 0x40000000).writeFS 3 0x3E800000)
    (fun t => t.readFS 4 == 0xC0500000) = true := by decide +kernel

/-- V173: `(any)`. -/
theorem test_fault_misaligned : ends (base.setPc 0x00010012)
    (fun t => t.pc == 0x00010012 && t.status == 0b00001 && t.fault && t.counter == 0) = true := by decide +kernel

/-- V175: `(any)`. -/
theorem test_fault_outside : ends (base.setPc 0x00010400)
    (fun t => t.pc == 0x00010400 && t.status == 0b00001 && t.fault && t.counter == 0) = true := by decide +kernel

/-- V177: `addi x5, x0, 1`. -/
theorem test_sticky : ends ({ (start 0x00100293) with fault := true })
    (fun t => t.pc == 0x00010010 && t.status == 0b00001 && t.fault && t.counter == 0) = true := by decide +kernel

/-- V178: `(zero word)`. -/
theorem test_fault_length : ends (start 0x00000000)
    (fun t => t.pc == 0x00010010 && t.status == 0b00001 && t.fault && t.counter == 0) = true := by decide +kernel

/-- V183: `fclass.s x5, f1`. -/
theorem test_unrecognised : refuses .unrecognised (start 0xE00092D3) = true := by decide +kernel

/-- V189: `(OP-FP, funct7 0000010)`. -/
theorem test_unrecognised_opfp : refuses .unrecognised (start 0x0420F1D3) = true := by decide +kernel

/-- V190: `fence`. -/
theorem test_unrecognised_echo : ends ((start 0x0FF0000F).request false false)
    (fun t => t.pc == 0x00010014 && t.counter == 0) = true := by decide +kernel

/-- The double-precision words of `test_decode_floatD_*` and `test_decode_fusedD` change only `pc` and the
counter (R240). -/
theorem test_stubs_1 : ([
    0b0000001#7 ++ 0b00111#5 ++ 0b00110#5 ++ 0b101#3 ++ 0b00101#5 ++ 0b1010011#7,
    0b0000101#7 ++ 0b00111#5 ++ 0b00110#5 ++ 0b101#3 ++ 0b00101#5 ++ 0b1010011#7,
    0b0001001#7 ++ 0b00111#5 ++ 0b00110#5 ++ 0b101#3 ++ 0b00101#5 ++ 0b1010011#7,
    0b0001101#7 ++ 0b00111#5 ++ 0b00110#5 ++ 0b101#3 ++ 0b00101#5 ++ 0b1010011#7,
    0b0101101#7 ++ 0b00000#5 ++ 0b00110#5 ++ 0b101#3 ++ 0b00101#5 ++ 0b1010011#7,
    0b0010001#7 ++ 0b00111#5 ++ 0b00110#5 ++ 0b000#3 ++ 0b00101#5 ++ 0b1010011#7,
    0b0010001#7 ++ 0b00111#5 ++ 0b00110#5 ++ 0b001#3 ++ 0b00101#5 ++ 0b1010011#7,
    0b0010001#7 ++ 0b00111#5 ++ 0b00110#5 ++ 0b010#3 ++ 0b00101#5 ++ 0b1010011#7,
    0b0010101#7 ++ 0b00111#5 ++ 0b00110#5 ++ 0b000#3 ++ 0b00101#5 ++ 0b1010011#7,
    0b0010101#7 ++ 0b00111#5 ++ 0b00110#5 ++ 0b001#3 ++ 0b00101#5 ++ 0b1010011#7,
    0b0100000#7 ++ 0b00001#5 ++ 0b00110#5 ++ 0b101#3 ++ 0b00101#5 ++ 0b1010011#7,
    0b0100001#7 ++ 0b00000#5 ++ 0b00110#5 ++ 0b101#3 ++ 0b00101#5 ++ 0b1010011#7] : List Word).all stubbed = true := by decide +kernel

/-- The double-precision words of `test_decode_floatD_*` and `test_decode_fusedD` change only `pc` and the
counter (R240). -/
theorem test_stubs_2 : ([
    0b1010001#7 ++ 0b00111#5 ++ 0b00110#5 ++ 0b010#3 ++ 0b00101#5 ++ 0b1010011#7,
    0b1010001#7 ++ 0b00111#5 ++ 0b00110#5 ++ 0b001#3 ++ 0b00101#5 ++ 0b1010011#7,
    0b1010001#7 ++ 0b00111#5 ++ 0b00110#5 ++ 0b000#3 ++ 0b00101#5 ++ 0b1010011#7,
    0b1110001#7 ++ 0b00000#5 ++ 0b00110#5 ++ 0b001#3 ++ 0b00101#5 ++ 0b1010011#7,
    0b1100001#7 ++ 0b00000#5 ++ 0b00110#5 ++ 0b101#3 ++ 0b00101#5 ++ 0b1010011#7,
    0b1100001#7 ++ 0b00001#5 ++ 0b00110#5 ++ 0b101#3 ++ 0b00101#5 ++ 0b1010011#7,
    0b1101001#7 ++ 0b00000#5 ++ 0b00110#5 ++ 0b101#3 ++ 0b00101#5 ++ 0b1010011#7,
    0b1101001#7 ++ 0b00001#5 ++ 0b00110#5 ++ 0b101#3 ++ 0b00101#5 ++ 0b1010011#7,
    0b11110#5 ++ 0b01#2 ++ 0b00111#5 ++ 0b00110#5 ++ 0b101#3 ++ 0b00101#5 ++ 0b1000011#7,
    0b11110#5 ++ 0b01#2 ++ 0b00111#5 ++ 0b00110#5 ++ 0b101#3 ++ 0b00101#5 ++ 0b1000111#7,
    0b11110#5 ++ 0b01#2 ++ 0b00111#5 ++ 0b00110#5 ++ 0b101#3 ++ 0b00101#5 ++ 0b1001011#7,
    0b11110#5 ++ 0b01#2 ++ 0b00111#5 ++ 0b00110#5 ++ 0b101#3 ++ 0b00101#5 ++ 0b1001111#7] : List Word).all stubbed = true := by decide +kernel

/-! ### Hooks, FLD and FSD, the host interface, echo -/

/-- A present hook completes, whatever it does (R195). -/
theorem test_hook_present : ends ((start 0x00000073).setHook .ecall true) (fun _ => true) = true := rfl

/-- BITMANIP-GROUP with its hook absent (R201, R196). -/
theorem test_bitmanip : ends ((baseWith (params .stub [⟨0x7F, 0x0B⟩])).withFetchWord 32 0x0000000B)
    (fun t => t.pc == 0x10014 && t.counter == 1) = true := by decide +kernel

/-- `fld f1, 0(x6)` and `fsd f1, 0(x6)` under each candidate of FLD_FSD_ACTION (R241, R242). -/
theorem test_fld_stub : ends ((put (start 0x00033087) 0x1000 [1, 2, 3, 4, 5, 6, 7, 8]).pokeX 6 0x1000)
    (fun t => t.readFD 1 == 0 && t.pc == 0x10014 && t.counter == 1) = true := by decide +kernel
theorem test_fld_move64 : ends ((put ((baseWith (params .move64 [])).withFetchWord 32 0x00033087) 0x1000
    [1, 2, 3, 4, 5, 6, 7, 8]).pokeX 6 0x1000) (fun t => t.readFD 1 == 0x0807060504030201) = true := by
  decide +kernel
theorem test_fsd_stub : ends (((start 0x00133027).writeFD 1 0x0807060504030201).pokeX 6 0x1000)
    (fun t => t.stack == [] && t.counter == 1) = true := by decide +kernel
theorem test_fsd_move64 : ends ((((baseWith (params .move64 [])).withFetchWord 32 0x00133027).writeFD 1
    0x0807060504030201).pokeX 6 0x1000)
    (fun t => t.memRead 0x1003 2 == .done 0x0504) = true := by decide +kernel

/-- Every word runs as the first instruction after reset; here ADDI, FLD and ECALL. -/
theorem test_from_reset : ends (State.reset.withFetchWord 32 0x00100293) (fun t => t.readX 5 == 1) = true ∧
    ends (State.reset.withFetchWord 32 0x00033087) (fun _ => true) = true ∧
    ends (State.reset.withFetchWord 32 0x00000073) (fun t => t.counter == 1) = true := ⟨rfl, rfl, rfl⟩

/-- `map` takes the first free slot, and after `unmap` nothing resolves there (R70, R71). -/
theorem test_map_unmap : (base.map ⟨0x500, 8⟩ 8).map Prod.snd = some 0x80000000 ∧
    ((mapped base []).map ⟨0, 4⟩ 4).map Prod.snd = some 0x80100000 ∧
    ((mapped base []).unmap 0x8000FFFF).1.resolve 0x80000000 = none := by decide +kernel

/-- The boot duties with two arguments (R304). -/
theorem test_boot : (base.boot [7, 9] 0x10004 false).readX 10 = 7 ∧
    (base.boot [7, 9] 0x10004 false).readX 11 = 9 ∧
    (base.boot [7, 9] 0x10004 false).readX 1 = 0xFFFFFFF0 := by decide

/-- A ninth argument reaches no register (log entry 30). -/
theorem test_boot_nine : (base.boot [1, 2, 3, 4, 5, 6, 7, 8, 9] 0x10004 false).readX 17 = 8 ∧
    (base.boot [1, 2, 3, 4, 5, 6, 7, 8, 9] 0x10004 false).readX 18 = 0 := by decide

/-- An image with two symbols of one name. -/
def named : State := { base with image := { base.image with
  funcs := [⟨[0x66], 0x10000, 80⟩, ⟨[0x67], 0x10008, 6⟩, ⟨[0x66], 0x10020, 4⟩] } }

/-- Symbol lookup takes the first hit and floors the instruction count (R305). -/
theorem test_symbols : named.findFunc [0x66] = some 0 ∧ named.insnCount 0 = some 20 ∧
    named.insnCount 1 = some 1 ∧ named.findFunc [0x46] = none := by decide

/-- The pseudo-instructions, in the order of R111. -/
theorem test_pseudo : pseudoOf (.addi 0 0 0) = some .nop ∧ pseudoOf (.addi 5 0 2) = some (.li 5 2) ∧
    pseudoOf (.addi 5 6 0) = some (.mv 5 6) ∧ pseudoOf (.jalr 0 1 0) = some .ret ∧
    pseudoOf (.jalr 0 1 4) = none ∧ pseudoOf (.jal 0 8) = some (.j 8) := by decide

/-- Echo renders `li t0, 2` in the alternate mode only (R111), nothing without `echo_en`. -/
theorem test_echo :
    (((start 0x00200293).setEcho ⟨false, true, true⟩).request true true).echo = some (.pseudo (.li 5 2)) ∧
    ((start 0x00200293).request true true).echo = some (.plain (.addi 5 0 2)) ∧
    (start 0x00200293).echo = none := by decide +kernel

/-! ### Witnesses: states and operands that meet the hypotheses of the statements -/

/-- The state of the vectors with the word `addi x5, x0, 1`. -/
def running : State := start 0x00100293

/-- A state with the sticky fault flag set. -/
def faulted : State := { named with fault := true, status := 1 }

theorem test_witness_OpcodeTableUnambiguous :
    (∃ r ∈ opcodeRows, r.sel.fits 0x007302B3 = true) ∧ opcodeRows.reverse.Perm opcodeRows :=
  ⟨List.any_eq_true.mp (by decide +kernel : (opcodeRows.any fun r => r.sel.fits 0x007302B3) = true),
    List.reverse_perm _⟩

theorem test_witness_ImmediatesRoundTrip :
    (-4096 : BitVec 13).toNat % 2 = 0 ∧ (1048574 : BitVec 21).toNat % 2 = 0 := by decide

theorem test_witness_DecodeOfEncode :
    (Instr.jal 1 (-1048576)).encodable (params .stub []) = true ∧
    (Instr.faddS 31 0 31 7).encodable (params .stub []) = true ∧
    (Instr.bitmanipGroup 0x0B).encodable (params .stub [⟨0x7F, 0x0B⟩]) = true := by decide +kernel

theorem test_witness_EncodeOfDecode :
    decode (params .stub []) 0x1820F243 = some (.fmaddS 4 1 2 3 7) := by decide +kernel

/-- One word of each clause, in the clauses' order. -/
theorem test_witness_UnrecognisedWords :
    (([0x0FF0000F, 0x00003003, 0x00003023, 0x00002063, 0x00001067, 0x04000033, 0x400010B3, 0x02001013,
      0x02005013, 0x30009073, 0x00000007, 0x04000043, 0x04000053, 0xE00010D3] : List Word).all
        fun w => is32 w && (rowOf w).isNone) = true ∧
    (start 0x0FF0000F).fault = false ∧ (start 0x0FF0000F).fetch = .ok 0x0FF0000F ∧
    (start 0x0FF0000F).execEn = true ∧ (start 0x0FF0000F).params.selectsBitmanip 0x0FF0000F = false ∧
    opFpAccepted 0b0000010 0 0 = false ∧ opFpAccepted 0b1110001 0 1 = true := by decide +kernel

/-- Misaligned, below the code, past it, and its first and last word. -/
theorem test_witness_FetchReadsCodeOnly : 0x10001 % 4 ≠ 0 ∧ 0xFFFC % 4 = 0 ∧ 0xFFFC < 0x10000 ∧
    0x10400 - 0x10000 + 4 > base.image.size ∧ 0x103FC - 0x10000 + 4 ≤ base.image.size ∧
    (base.setPc 0x103FC).fetch = .ok 0 ∧ (base.setPc 0x10000).fetch = .ok 0 := by decide +kernel

theorem test_witness_FaultsExactlyForTheThreeCauses : base.fault = false ∧
    (∃ t, step base = .next t ∧ t.fault = true) ∧ (base.setPc 0x10002).fetch = .error .misalignedFetch ∧
    (base.setPc 4).fetch = .error .fetchOutsideCode ∧ base.fetch = .ok 0 ∧ is32 0 = false :=
  ⟨rfl, ⟨_, rfl, rfl⟩, by decide +kernel, by decide +kernel, by decide +kernel, by decide⟩

theorem test_witness_StickyFaultMakesEveryStepANoOp : faulted.fault = true := rfl

theorem test_witness_FaultFlagClearedOnlyByInitialisation : faulted.fault = true ∧
    (∃ t, step faulted = .next t) ∧ (faulted.setPcToName [0x67]).isSome = true ∧
    (faulted.map ⟨0, 8⟩ 8).isSome = true ∧ (faulted.writeNamed "zero" 1).isSome = true ∧
    (faulted.setPcToIndex 2).isSome = true :=
  ⟨rfl, ⟨_, rfl⟩, by decide, by decide +kernel, by decide, by decide⟩

theorem test_witness_StepRunsTheDecodedInstruction : running.fault = false ∧ running.execEn = true ∧
    running.fetch = .ok 0x00100293 ∧ decode running.params 0x00100293 = some (.addi 5 0 1) := by
  decide +kernel

theorem test_witness_EchoOnlyStepAdvancesPc : (running.request false true).fault = false ∧
    (running.request false true).execEn = false ∧ (running.request false true).fetch = .ok 0x00100293 ∧
    is32 0x00100293 = true ∧ (base.request false true).fetch = .ok 0 ∧ is32 0 = false ∧
    (running.request true true).execEn = true := by
  decide +kernel

theorem test_witness_CounterCountsExecutedSteps :
    (∃ t, step running = .next t) ∧ (∃ t, step base = .next t) ∧
    ∃ t, step (running.request false false) = .next t := ⟨⟨_, rfl⟩, ⟨_, rfl⟩, ⟨_, rfl⟩⟩

theorem test_witness_PcAfterAStep : (∃ t, exec (.jal 1 (-16)) running = .next t) ∧
    (∃ t, step base = .next t ∧ t.fault = true) ∧
    ∃ t, step (running.request false false) = .next t ∧ t.fault = false :=
  ⟨⟨_, rfl⟩, ⟨_, rfl, rfl⟩, ⟨_, rfl, rfl⟩⟩

theorem test_witness_StatusBitsAfterAStep : (start 0x00008067).fault = false ∧
    (start 0x00008067).execEn = true ∧ (start 0x00008067).fetch = .ok 0x00008067 ∧
    decode base.params 0x00008067 = some (.jalr 0 1 0) ∧ ∃ t, step (start 0x00008067) = .next t :=
  ⟨rfl, rfl, by decide +kernel, by decide +kernel, ⟨_, rfl⟩⟩

theorem test_witness_InstructionsNeverWriteX0 : (∃ t, exec (.add 0 1 2) running = .next t) ∧
    (∃ t, exec .ecall running = .next t) ∧ hookOf .ecall = some .ecall ∧
    (∀ k, running.hooks.present k = false) ∧ ∃ t, Host.Core.run Sys2Proof.core 2 running = .next t :=
  ⟨⟨_, rfl⟩, ⟨_, rfl⟩, rfl, fun k => by cases k <;> rfl, ⟨_, rfl⟩⟩

theorem test_witness_ConfigurationIsTheHosts : (∃ t, exec (.sw 6 7 0) running = .next t) ∧
    ∃ t, step running = .next t := ⟨⟨_, rfl⟩, ⟨_, rfl⟩⟩

/-- The addresses where the regions meet, one for each clause. -/
theorem test_witness_ResolverPriorityOrder : base.resolve 5 = some ⟨.stack, 5, 0xFFFB⟩ ∧
    base.resolve 0xFFFF = some ⟨.stack, 0xFFFF, 1⟩ ∧
    (mapped base []).resolve 0x80000007 = some ⟨.slot 0, 7, 1⟩ ∧
    (mapped base []).resolve 0x80000008 = none ∧ base.resolve 0x10000 = some ⟨.code, 0, 0x400⟩ ∧
    base.resolve 0x103FF = some ⟨.code, 0x3FF, 1⟩ ∧ base.resolve 0x10400 = none ∧
    base.resolve 4 = none := by decide +kernel

theorem test_witness_RegionsOfTheAddressSpace : (mapped base []).Inv ∧ (4 : Word).toNat ≤ 4 ∧
    (0xFFFF : Word).toNat < base.image.codeOrigin.toNat ∧ ((mapped base []).slots[0]).active = true ∧
    (0x80000007 : Word).toNat = (slotBase 0x80 0).toNat + 7 ∧ addrTag 0x80100000 = 0x80 ∧
    ((mapped base []).slots[addrSlot 0x80100000]).active = false ∧
    ((mapped base []).slots[addrSlot 0x80000008]).size ≤ 8 := by decide +kernel

theorem test_witness_ReadsAssembleLittleEndian : base.resolve 0 = none ∧
    base.resolve 0xFFFE = some ⟨.stack, 0xFFFE, 2⟩ ∧ base.resolve 0xFFFC = some ⟨.stack, 0xFFFC, 4⟩ ∧
    (mapped base []).resolve 0x80000004 = some ⟨.slot 0, 4, 4⟩ := by decide +kernel

theorem test_witness_WritesPlaceEachByte : base.resolve 4 = none ∧
    base.resolve 0x103FE = some ⟨.code, 0x3FE, 2⟩ ∧ base.resolve 0x103FC = some ⟨.code, 0x3FC, 4⟩ ∧
    (base.bank .code).wf = true := by decide +kernel

theorem test_witness_ReadAfterWrite : base.storesOk = true ∧ (mapped base []).Inv ∧
    (0x80000004 : Word).toNat + 4 ≤ 2 ^ 32 ∧
    (∃ t, (mapped base []).memWrite 0x80000004 4 0x12345678 = .done t) ∧
    ∃ t, base.memWrite 0xFFFF 1 0xFF = .done t :=
  ⟨by decide +kernel, by decide +kernel, by decide, ⟨_, rfl⟩, ⟨_, rfl⟩⟩

theorem test_witness_StoreIntoCodeIsFetchedNext : (base.pokeX 6 0x10010).storesOk = true ∧
    (base.pokeX 6 0x10010).readX 6 + (4 : BitVec 12).signExtend 32 = base.pc + 4 ∧
    (∃ t, exec (.sw 6 7 4) (base.pokeX 6 0x10010) = .next t) ∧ (base.pc + 4).toNat % 4 = 0 ∧
    base.resolve (base.pc + 4) = some ⟨.code, 0x14, 0x400 - 0x14⟩ :=
  ⟨by decide +kernel, by decide, ⟨_, rfl⟩, by decide, by decide +kernel⟩

theorem test_witness_OpImmediate : Field.opcode 0x02001013 = 0x13#7 ∧
    Field.funct3 0x02001013 = 0b001#3 ∧ Field.funct7 0x02001013 ≠ 0b0000000#7 ∧
    Field.opcode 0x02005013 = 0x13#7 ∧ Field.funct3 0x02005013 = 0b101#3 ∧
    Field.funct7 0x02005013 ∉ [0b0000000#7, 0b0100000#7] := by decide

theorem test_witness_MultiplicationAndDivisionLaws : (0xFFFFFFFE : Word) ≠ 0 ∧
    ¬((0x80000000 : Word).toInt = -2 ^ 31 ∧ (0xFFFFFFFE : Word).toInt = -1) ∧
    (0 : Int) ≤ (0x7FFFFFFF : Word).toInt ∧ (0x80000000 : Word).toInt ≤ 0 := by decide

/-- A state whose `x6` is 0x1000, with bytes there. -/
def loaded : State := (put base 0x1000 [0x80, 0xFF, 0x01, 0x7F, 5, 6, 7, 8]).pokeX 6 0x1000

theorem test_witness_LoadResults : loaded.memRead (loaded.readX 6 + (0 : BitVec 12).signExtend 32) 1 = .done 0x80 ∧
    loaded.memRead (loaded.readX 6 + (0 : BitVec 12).signExtend 32) 2 = .done 0xFF80 ∧
    loaded.memRead (loaded.readX 6 + (0 : BitVec 12).signExtend 32) 4 = .done 0x7F01FF80 := by
  decide +kernel

theorem test_witness_StoreResults : loaded.storesOk = true ∧
    loaded.accessPlace (loaded.readX 6 + (-1 : BitVec 12).signExtend 32) 1 = .done ⟨.stack, 0xFFF⟩ ∧
    loaded.accessPlace (loaded.readX 6 + (-1 : BitVec 12).signExtend 32) 2 = .done ⟨.stack, 0xFFF⟩ ∧
    loaded.accessPlace (loaded.readX 6 + (-1 : BitVec 12).signExtend 32) 4 = .done ⟨.stack, 0xFFF⟩ := by
  decide +kernel

theorem test_witness_UnresolvedAccessIsSkipped :
    base.resolve (base.readX 0 + (4 : BitVec 12).signExtend 32) = none := by decide +kernel

/-- Views of 1, 2, 3 and 4 bytes at the end of the stack. -/
theorem test_witness_OverrunIsRefused :
    (base.pokeX 6 0x10000).resolve ((base.pokeX 6 0x10000).readX 6 + (-1 : BitVec 12).signExtend 32) =
      some ⟨.stack, 0xFFFF, 1⟩ ∧
    (base.pokeX 6 0x10000).resolve ((base.pokeX 6 0x10000).readX 6 + (-2 : BitVec 12).signExtend 32) =
      some ⟨.stack, 0xFFFE, 2⟩ ∧
    (base.pokeX 6 0x10000).resolve ((base.pokeX 6 0x10000).readX 6 + (-3 : BitVec 12).signExtend 32) =
      some ⟨.stack, 0xFFFD, 3⟩ ∧
    (base.pokeX 6 0x10000).resolve ((base.pokeX 6 0x10000).readX 6 + (-4 : BitVec 12).signExtend 32) =
      some ⟨.stack, 0xFFFC, 4⟩ := by decide +kernel

/-- A machine whose FLD and FSD move 64 bits, `x6` at the last 8 bytes of the stack. -/
def moving : State := (baseWith (params .move64 [])).pokeX 6 0xFFF8

theorem test_witness_FldFsdFollowTheirParameter : base.params.fldFsd = .stub ∧
    moving.params.fldFsd = .move64 ∧ moving.storesOk = true ∧
    moving.memRead (moving.readX 6 + (0 : BitVec 12).signExtend 32) 8 = .done 0 ∧
    moving.accessPlace (moving.readX 6 + (0 : BitVec 12).signExtend 32) 8 = .done ⟨.stack, 0xFFF8⟩ ∧
    moving.resolve (moving.readX 0 + (4 : BitVec 12).signExtend 32) = none ∧
    moving.resolve (moving.readX 6 + (1 : BitVec 12).signExtend 32) = some ⟨.stack, 0xFFF9, 7⟩ := by
  decide +kernel

/-- `x6` is -1, `x7` is 1. -/
def compared : State := (base.pokeX 6 0xFFFFFFFF).pokeX 7 1

theorem test_witness_Branches : compared.readX 6 ≠ compared.readX 7 ∧ compared.readX 6 = compared.readX 6 ∧
    (compared.readX 6).toInt < (compared.readX 7).toInt ∧ (compared.readX 7).toInt ≥ (compared.readX 6).toInt ∧
    (compared.readX 7).toNat < (compared.readX 6).toNat ∧
    (compared.readX 6).toNat ≥ (compared.readX 7).toNat := by decide

theorem test_witness_AbsentHookIsANoOp : base.hooks.ecall = false ∧ base.hooks.ebreak = false ∧
    base.hooks.atomic = false ∧ base.hooks.bitmanip = false := by decide

/-- Byte 4 of the stack buffer is one no address resolves to. -/
theorem test_witness_PresentHookStaysInItsBounds : hookOf .ebreak = some .ebreak ∧
    (base.setHook .ebreak true).hooks.present .ebreak = true ∧
    ∀ (a : Word) (v : View), (base.setHook .ebreak true).resolve a = some v →
      (base.setHook .ebreak true).viewPlace v ≠ ⟨.stack, 4⟩ := by
  refine ⟨rfl, rfl, fun a v h => ?_⟩
  rcases resolve_some h with ⟨h1, _, rfl⟩ | ⟨_, _, rfl⟩ | ⟨_, _, rfl⟩
  · simp only [State.viewPlace, ne_eq, Place.mk.injEq, true_and]; omega
  · simp [State.viewPlace]
  · simp [State.viewPlace]

/-- Cells 1 to 8: 3.2, -4.5, +0, -0, a NaN, +infinity, -infinity, -1. -/
def floats : State := (((((((base.writeFS 1 0x404CCCCD).writeFS 2 0xC0900000).writeFS 4 0x80000000).writeFS 5
  0x7FC00000).writeFS 6 0x7F800000).writeFS 7 0xFF800000).writeFS 8 0xBF800000)

theorem test_witness_FloatArithmetic : ((floats.readFS 2).extractLsb' 0 31 ≠ 0) ∧
    (floats.readFS 3).extractLsb' 0 31 = 0 ∧ (floats.readFS 4).extractLsb' 0 31 = 0 := by decide +kernel

theorem test_witness_SignInjectionAndMinMax : isNaN (floats.readFS 5) = true ∧
    (floats.readFS 3).extractLsb' 0 31 = 0 ∧ (floats.readFS 4).extractLsb' 0 31 = 0 ∧
    isNaN (floats.readFS 1) = false ∧ (floats.readFS 1).extractLsb' 0 31 ≠ 0 := by decide +kernel

/-- -2.5, a tie, in each direction, and 3.5 to the even integer. -/
theorem test_float_to_int_directions : f32ToInt .nearestEven 0xC0200000 = -2 ∧
    f32ToInt .towardZero 0xC0200000 = -2 ∧ f32ToInt .down 0xC0200000 = -3 ∧
    f32ToInt .up 0xC0200000 = -2 ∧ f32ToInt .nearestAway 0xC0200000 = -3 ∧
    f32ToInt .nearestEven 0x40600000 = 4 := by decide +kernel

/-- 2^24 + 1, a tie, and the greatest unsigned word, by hand from R225 and R226. -/
theorem test_int_to_float_rounds : f32FromInt 16777217 = 0x4B800000 ∧
    f32FromInt 0xFFFFFFFF = 0x4F800000 := by decide +kernel

/-- A NaN, both infinities, integers out of each range, and integers at the ends of the ranges. -/
theorem test_witness_ConversionsAndMoves : isNaN 0x7FC00000 = true ∧
    isNaN 0xC0200000 = false ∧ isInf 0xC0200000 = false ∧
    isInf 0x7F800000 = true ∧ isNaN 0x7F800000 = false ∧ f32Sign 0x7F800000 = false ∧
    isInf 0xFF800000 = true ∧ isNaN 0xFF800000 = false ∧ f32Sign 0xFF800000 = true ∧
    -(2 : Int) ^ 31 ≤ 2 ^ 32 - 1 ∧
    f32ToInt .towardZero 0x4F000000 > 2 ^ 31 - 1 ∧ f32ToInt .towardZero 0xCF000001 < -2 ^ 31 ∧
    f32ToInt .towardZero 0xCF000000 = -2 ^ 31 ∧ f32ToInt .towardZero 0x4F800000 > 2 ^ 32 - 1 ∧
    f32ToInt .towardZero 0xBF800000 < 0 ∧ f32ToInt .towardZero 0x4F7FFFFF = 2 ^ 32 - 256 ∧
    base.params.f2iRound[(0 : BitVec 3).toNat]'(by decide) = .towardZero := by decide +kernel

theorem test_witness_RoundingIsToNearestEven : 0 < 3 ∧ roundMag 1 3 < 0x7F800000 ∧
    roundMag (2 ^ 277) 1 = 0x7F800000 ∧ (0x7F7FFFFF : Nat) < 0x7F800000 := by decide +kernel

theorem test_witness_SumAndRootAreNearest : isNaN 0x404CCCCD = false ∧ isInf 0x404CCCCD = false ∧
    isNaN 0xC0900000 = false ∧ isInf 0xC0900000 = false ∧ f32Add 0x404CCCCD 0xC0900000 = some 0xBFA66666 ∧
    isInf 0xBFA66666 = false ∧ f32Val 0x404CCCCD + f32Val 0xC04CCCCD = 0 ∧
    f32Val 0x404CCCCD - f32Val 0x404CCCCD = 0 ∧ f32Add 0x7F7FFFFF 0x7F7FFFFF = some 0x7F800000 ∧
    isZero 0x40000000 = false ∧ f32Sign 0x40000000 = false ∧ f32Sqrt 0x40000000 = some 0x3FB504F3 ∧
    f32Mag 0x3FB504F3 < f32Mag 0x3FB504F4 ∧ f32Mag 0x3FB504F2 < f32Mag 0x3FB504F3 := by decide +kernel

theorem test_witness_FloatSpecialCases : isNaN 0x7F800001 = true ∧ isInf 0x7F800000 = true ∧
    isInf 0xFF800000 = true ∧ f32Sign 0x7F800000 ≠ f32Sign 0xFF800000 ∧ isZero 0x80000000 = true ∧
    isNaN 0x7F7FFFFF = false ∧ isInf 0x7F7FFFFF = false ∧ f32Sign 0x80000001 = true ∧
    isNaN 0x80000001 = false ∧ isZero 0x80000001 = false ∧ f32Sign 0x7F800000 = f32Sign 0x7F800000 ∧
    isZero 0x3F800000 = false ∧ isNaN 0x3F800000 = false ∧ isInf 0x3F800000 = false := by decide

/-- 3.2 * -4.5, 1 / 3 (no tie), the least subnormal halved (a tie, to even), and 1 * 1 - 1. -/
theorem test_witness_ProductQuotientAndFusedAreNearest : isNaN 0x404CCCCD = false ∧
    isInf 0x404CCCCD = false ∧ isNaN 0xC0900000 = false ∧ isInf 0xC0900000 = false ∧
    f32Mul 0x404CCCCD 0xC0900000 = some 0xC1666667 ∧ isZero 0x40400000 = false ∧
    f32Div 0x3F800000 0x40400000 = some 0x3EAAAAAB ∧ f32Mul 0x00000001 0x3F000000 = some 0 ∧
    f32Val 0x3F800000 * f32Val 0x3F800000 + f32Val 0xBF800000 * 2 ^ 149 = 0 := by decide +kernel

theorem test_witness_SmallIntegersSurviveConversion : (-2 : Int) ^ 24 ≤ 2 ^ 24 ∧ (0 : Int) ≤ 2 ^ 24 ∧
    -(2 : Int) ^ 24 ≤ -(2 : Int) ^ 24 := by decide

theorem test_witness_Initialisation : (running.setPc 4).image = running.image ∧
    (running.setPc 4).hostMem = running.hostMem ∧ (running.setPc 4).params = running.params := ⟨rfl, rfl, rfl⟩

theorem test_witness_InvariantKeptByEveryStep : running.Inv ∧ ∃ t, step running = .next t :=
  ⟨by decide +kernel, ⟨_, rfl⟩⟩

theorem test_witness_InvariantKeptByTheHost : (mapped base [1]).Inv ∧
    ((mapped base [1]).map ⟨0, 0x10000⟩ 0x10000).isSome = true ∧ named.Inv ∧
    (named.writeNamed "t6" 1).isSome = true ∧ (named.setPcToIndex 0).isSome = true ∧
    (named.setPcToName [0x66]).isSome = true := by decide +kernel

/-- A machine with every slot mapped. -/
def full : State := { base with slots := Vector.ofFn fun k => ⟨true, 0, 4, slotBase 0x80 k⟩ }

theorem test_witness_MapAndUnmap : (0x10001 > 0x10000) ∧ (∀ k : Fin 16, (full.slots[k]).active = true) ∧
    ((mapped base []).slots[(1 : Fin 16)]).active = false ∧
    (∀ j : Fin 16, j < 1 → ((mapped base []).slots[j]).active = true) ∧
    addrTag 0x8000FFFF = base.params.mapTag ∧ addrTag 0x10000 ≠ base.params.mapTag ∧
    (mapped base []).Inv ∧ addrSlot 0x80000000 = addrSlot 0x8000FFFF := by decide +kernel

theorem test_witness_BootDuties : 7 < ([1, 2, 3, 4, 5, 6, 7, 8] : List Word).length ∧ 10 + 7 < 18 ∧
    (18 : Reg).val ∉ [1, 2, 3] ∧ ¬(10 ≤ (18 : Reg).val ∧ (18 : Reg).val < 18 ∧ (18 : Reg).val < 10 + 8) := by
  decide

theorem test_witness_SymbolLookup : named.findFunc [0x67] = some 1 ∧ named.findFunc [] = none ∧
    named.image.funcs[2]? = some ⟨[0x66], 0x10020, 4⟩ ∧ named.image.funcs.length ≤ 3 := by decide

theorem test_witness_PseudoInstructionsAreSpellings :
    pseudoOf (.fsgnjxS 3 2 2) = some (.fabsS 3 2) ∧ pseudoOf (.fsgnjS 3 2 1) = none := by decide

theorem test_witness_PlacedWordIsFetchedNext : State.reset.image.code.wf = true ∧
    State.reset.image.codeOrigin.toNat ≤ 0xFFFFFFFC ∧ base.image.code.wf = true := by decide

end Sys2Proof.Tests
end

section
/-!
SUPPORT and PROOFS. The state and its invariant (10_state.md): what a whole step keeps, what the host's
operations change, and the statements about both.
-/

namespace Sys2Proof.Machine

/-! ### The invariant, part by part -/

/-- The regions depend on the image's layout and on the parameters, which no step changes. -/
theorem regionsOk_congr {s t : State} (h : s.SameFrame t) : t.regionsOk = s.regionsOk := by
  unfold State.regionsOk State.tagLow
  rw [h.codeOrigin, h.size, h.params]

theorem slotsOk_congr {s t : State} (h : s.SameFrame t) : t.slotsOk = s.slotsOk := by
  simp only [State.slotsOk, h.slots, h.params]

theorem slotsOk_iff (s : State) : s.slotsOk = true ↔ ∀ k : Fin 16, (s.slots[k]).active = true →
    (s.slots[k]).size ≤ 0x10000 ∧ (s.slots[k]).base = slotBase s.params.mapTag k := by
  simp only [State.slotsOk, List.all_eq_true, List.mem_finRange, true_imp_iff, Bool.or_eq_true,
    Bool.not_eq_true', Bool.and_eq_true, decide_eq_true_eq, beq_iff_eq, ← Bool.not_eq_true,
    ← imp_iff_not_or]

theorem faultOk_iff (s : State) :
    s.faultOk = true ↔ (s.fault = true → s.status = StatusBit.mask .native) := by
  simp only [State.faultOk, Bool.or_eq_true, Bool.not_eq_true', beq_iff_eq, ← Bool.not_eq_true,
    ← imp_iff_not_or]

/-- The pieces of state the invariant speaks of; every other piece is free. -/
theorem inv_congr {s t : State} (hi : s.Inv)
    (h : (t.stack, t.image, t.hostMem, t.slots, t.params, t.fault, t.status) =
      (s.stack, s.image, s.hostMem, s.slots, s.params, s.fault, s.status)) : t.Inv := by
  obtain ⟨⟩ := s
  obtain ⟨⟩ := t
  cases h
  exact hi

/-! ### What a whole step keeps -/

theorem sameFrame_step {s t : State} (h : step s = .next t) : s.SameFrame t := by
  rcases step_cases h with ⟨_, rfl⟩ | ⟨_, c, _, rfl⟩ | ⟨_, w, _, _, rfl⟩ | ⟨_, _, w, _, _, rfl⟩ |
    ⟨_, _, w, i, _, _, _, hx⟩
  case inr.inr.inr.inr => exact (sameFrame_clearStatus s).trans (exec_ran hx).frame
  all_goals exact ⟨rfl, rfl, rfl, rfl, rfl, rfl, rfl⟩

theorem storesOk_step {s t : State} (h : step s = .next t) (hs : s.storesOk = true) :
    t.storesOk = true := by
  rcases step_cases h with ⟨_, rfl⟩ | ⟨_, c, _, rfl⟩ | ⟨_, w, _, _, rfl⟩ | ⟨_, _, w, _, _, rfl⟩ |
    ⟨_, _, w, i, _, _, _, hx⟩
  case inr.inr.inr.inr => exact (exec_ran hx).stores hs
  all_goals exact hs

/-- After a step a set sticky flag stands with status exactly NATIVE, whatever stood before
(R271, R272). -/
theorem faultOk_step {s t : State} (h : step s = .next t) : t.faultOk = true := by
  rw [faultOk_iff]
  intro ht
  rcases step_cases h with ⟨_, rfl⟩ | ⟨_, c, _, rfl⟩ | ⟨_, w, _, _, rfl⟩ | ⟨hf, _, w, _, _, rfl⟩ |
    ⟨hf, _, w, i, _, _, _, hx⟩
  · rfl
  · rfl
  · rfl
  · simp [hf] at ht
  · simp [(exec_ran hx).fault, hf] at ht

/-- Settles O53: the regions and slots stand in the frame no step changes, the stores stay canonical
through every instruction and hook, and the fault path sets exactly NATIVE. -/
theorem invariantKeptByEveryStep : Obligations.InvariantKeptByEveryStep := by
  unfold Obligations.InvariantKeptByEveryStep
  rintro s t ⟨hr, hl, hs, _⟩ h
  have hf := sameFrame_step h
  exact ⟨(regionsOk_congr hf).trans hr, (slotsOk_congr hf).trans hl, storesOk_step h hs, faultOk_step h⟩

/-- Settles O18: the frame of an executed instruction and of a step. -/
theorem configurationIsTheHosts : Obligations.ConfigurationIsTheHosts := by
  unfold Obligations.ConfigurationIsTheHosts
  exact ⟨fun _ _ _ h => ⟨(exec_ran h).frame, (exec_ran h).fault⟩, fun _ _ h => sameFrame_step h⟩

/-- Settles O14: of the five ways a step ends, only the executed instruction counts. -/
theorem counterCountsExecutedSteps : Obligations.CounterCountsExecutedSteps := by
  unfold Obligations.CounterCountsExecutedSteps
  intro s t h
  rcases step_cases h with ⟨hf, rfl⟩ | ⟨_, c, _, rfl⟩ | ⟨_, w, _, _, rfl⟩ | ⟨_, he, w, _, _, rfl⟩ |
    ⟨hf, he, w, i, _, _, _, hx⟩
  · simp [hf]
  · simp
  · simp
  · simp [he]
  · simp [(exec_ran hx).counter, (exec_ran hx).fault, hf, he]

/-! ### `x[0]` along a run -/

/-- A step with all hooks absent leaves `x[0]` (R31). -/
theorem readX_zero_step {s t : State} (hk : ∀ k, s.hooks.present k = false) (h : step s = .next t) :
    t.readX 0 = s.readX 0 := by
  rcases step_cases h with ⟨_, rfl⟩ | ⟨_, c, _, rfl⟩ | ⟨_, w, _, _, rfl⟩ | ⟨_, _, w, _, _, rfl⟩ |
    ⟨_, _, w, i, _, _, _, hx⟩
  case inr.inr.inr.inr => exact (exec_ran hx).zero fun k _ => hk k
  all_goals rfl

/-- A run of one more step that ends in a next state begins with a step that does. -/
theorem run_succ_next {M : Host.Core} {n : Nat} {s t : M.State} (h : M.run (n + 1) s = .next t) :
    ∃ u, M.step s = .next u ∧ M.run n u = .next t := by
  cases hs : M.step s with
  | next u => exact ⟨u, rfl, by simpa [Host.Core.run, hs] using h⟩
  | fault q => simp [Host.Core.run, hs] at h
  | refused q => simp [Host.Core.run, hs] at h

theorem readX_zero_run {s t : State} {n : Nat} (hk : ∀ k, s.hooks.present k = false)
    (h : Host.Core.run Sys2Proof.core n s = .next t) : t.readX 0 = s.readX 0 := by
  induction n generalizing s with
  | zero => cases h; rfl
  | succ n ih =>
    obtain ⟨u, hu, h⟩ := run_succ_next h
    have hku : ∀ k, u.hooks.present k = false := by rw [(sameFrame_step hu).hooks]; exact hk
    exact (ih hku h).trans (readX_zero_step hk hu)

/-- Settles O17, for a run by induction on the number of steps. -/
theorem instructionsNeverWriteX0 : Obligations.InstructionsNeverWriteX0 := by
  unfold Obligations.InstructionsNeverWriteX0
  exact ⟨fun _ _ _ h => (exec_ran h).zero, fun _ _ _ hk h => readX_zero_run hk h⟩

/-! ### The status bits of one instruction (R41) -/

/-- The instructions that can transfer control are the branches, JAL and JALR, and the two jumps
always do. -/
theorem transferOf_cases (s : State) (i : Instr) :
    (s.transferOf i = none ∧ (∀ rd off, i ≠ .jal rd off) ∧ ∀ rd rs1 imm, i ≠ .jalr rd rs1 imm) ∨
    (isBranch i = true ∧ ∃ t, s.transferOf i = some t) ∨
    (∃ rd off, i = .jal rd off ∧ s.transferOf i = some (s.jumpTarget off)) ∨
    ∃ rd rs1 imm, i = .jalr rd rs1 imm ∧ s.transferOf i = some (s.ea rs1 imm) := by
  cases i
  case jal rd off => exact .inr (.inr (.inl ⟨rd, off, rfl, rfl⟩))
  case jalr rd rs1 imm => exact .inr (.inr (.inr ⟨rd, rs1, imm, rfl, rfl⟩))
  case beq | bne | blt | bge | bltu | bgeu =>
    simp only [State.transferOf]
    split
    · exact .inr (.inl ⟨rfl, _, rfl⟩)
    · exact .inl ⟨rfl, nofun, nofun⟩
  all_goals exact .inl ⟨rfl, nofun, nofun⟩

theorem eventsOf_of_none {s : State} {i : Instr} (h : s.transferOf i = none) : s.eventsOf i = 0 := by
  simp [State.eventsOf, h]

theorem eventsOf_of_some {s : State} {i : Instr} {a : Word} (h : s.transferOf i = some a) :
    s.eventsOf i = transferBits i ||| (if a = s.params.nativePc then StatusBit.mask .native else 0) := by
  simp [State.eventsOf, h]

theorem transferBits_of_isBranch {i : Instr} (h : isBranch i = true) :
    transferBits i = StatusBit.mask .branchTaken := by
  cases i
  case beq | bne | blt | bge | bltu | bgeu => rfl
  all_goals cases h

/-- The events of an instruction do not depend on the status it starts from. -/
theorem eventsOf_clearStatus (s : State) (i : Instr) : s.clearStatus.eventsOf i = s.eventsOf i := rfl

/-! ### The return word (R189) -/

/-- A word is its I-format fields put together. -/
theorem encI_fields (w : Word) :
    encI (Field.immI12 w) (Field.rs1 w) (Field.funct3 w) (Field.rd w) (Field.opcode w) = w := by
  apply BitVec.eq_of_toNat_eq
  have h1 : (Field.rs1 w).val = (w.extractLsb' 15 5).toNat := rfl
  have h2 : (Field.rd w).val = (w.extractLsb' 7 5).toNat := rfl
  have := w.isLt
  rw [toNat_encI, h1, h2, Field.immI12, Field.funct3, Field.opcode]
  simp only [toNat_field]
  omega

/-- Only the row of JALR reads a JALR. -/
theorem row_of_build_jalr {w : Word} {rd rs1 : Reg} {imm : BitVec 12} : ∀ r ∈ opcodeRows,
    r.build w = .jalr rd rs1 imm →
    r.sel = { opcode := 0b1100111, funct3 := some 0b000 } ∧
      Field.rd w = rd ∧ Field.rs1 w = rs1 ∧ Field.immI12 w = imm := by
  simp only [opcodeRows, rowsUpper, rowsOpImm, rowsOp, rowsMulDiv, rowsLoad, rowsStore, rowsControl,
    rowsSystem, rowsFloatMem, rowsFloatS, rowsFusedS, rowsFloatD, rowsFusedD,
    List.forall_mem_append, List.forall_mem_cons, List.not_mem_nil, reduceCtorEq, Instr.jalr.injEq,
    false_imp_iff, imp_self, implies_true, true_and, and_true]

/-- The word of a decoded JALR is its encoding. -/
theorem encode_of_decode_jalr {p : Params} {w : Word} {rd rs1 : Reg} {imm : BitVec 12}
    (h : decode p w = some (.jalr rd rs1 imm)) : w = encode (.jalr rd rs1 imm) := by
  obtain ⟨-, ⟨r, hr, hw, hb⟩ | ⟨-, -, hb⟩⟩ := decode_some h
  · obtain ⟨hsel, rfl, rfl, rfl⟩ := row_of_build_jalr r hr hb.symm
    simp only [hsel, Selector.fits, Option.all_some, Option.all_none, Bool.and_true, Bool.and_eq_true,
      beq_iff_eq] at hw
    obtain ⟨hop, hf3⟩ := hw
    rw [encode, hf3, ← hop, encI_fields]
  · cases hb

theorem decode_ret (p : Params) : decode p 0x00008067 = some (.jalr 0 1 0) := by
  obtain ⟨h32, ⟨r, hr, hf, hb⟩ | ⟨w, hw, -⟩⟩ := Laws.EncodesOwnRow.jalr 0 1 0 rfl
  · have he : encode (.jalr 0 1 0) = 0x00008067 := by decide
    rw [he] at h32 hf hb
    unfold decode
    rw [if_pos h32, rowOf_of_fits hr hf]
    exact congrArg some hb
  · cases hw

/-- A decoded JALR is the canonical return exactly for the word 0x00008067. -/
theorem isRet_iff_word {p : Params} {w : Word} {rd rs1 : Reg} {imm : BitVec 12}
    (h : decode p w = some (.jalr rd rs1 imm)) : isRet rd rs1 imm = true ↔ w = 0x00008067#32 := by
  constructor
  · intro hr
    simp only [isRet, Bool.and_eq_true, beq_iff_eq] at hr
    obtain ⟨⟨rfl, rfl⟩, rfl⟩ := hr
    rw [encode_of_decode_jalr h]; decide
  · rintro rfl
    cases (decode_ret p).symm.trans h
    rfl

/-- The status an executed step ends with: status starts at zero, so it is the instruction's events. -/
theorem status_of_executed {s t : State} {w : Word} {i : Instr} (hf : s.fault = false)
    (he : s.execEn = true) (hw : s.fetch = .ok w) (hd : decode s.params w = some i)
    (h : step s = .next t) : t.status = s.eventsOf i := by
  rw [step_is32 hf hw (decode_some hd).1] at h
  have hx : exec i s.clearStatus = .next t := by simpa [State.runWord, he, hd] using h
  simpa [eventsOf_clearStatus] using (exec_ran hx).status

/-- Settles O16: the status is the events of the instruction, and its bits are read off for no
transfer, a taken branch, JAL and JALR in turn. -/
theorem statusBitsAfterAStep : Obligations.StatusBitsAfterAStep := by
  unfold Obligations.StatusBitsAfterAStep
  intro s t w i hf he hw hd h
  have hs := status_of_executed hf he hw hd h
  have hret : w = 0x00008067#32 → i = .jalr 0 1 0 := by
    rintro rfl; exact Option.some.inj (hd.symm.trans (decode_ret _))
  simp only [State.hasStatus, hs]
  rcases transferOf_cases s i with ⟨hn, hj, hr⟩ | ⟨hb, a, ha⟩ | ⟨rd, off, rfl, ha⟩ | ⟨rd, rs1, imm, rfl, ha⟩
  · have hw : w ≠ 0x00008067#32 := fun e => hr _ _ _ (hret e)
    simp [eventsOf_of_none hn, hn, hj, hr, hw]
  · have hw : w ≠ 0x00008067#32 := fun e => by rw [hret e] at hb; cases hb
    have hj : ∀ rd off, i ≠ .jal rd off := by rintro rd off rfl; cases hb
    have hr : ∀ rd rs1 imm, i ≠ .jalr rd rs1 imm := by rintro rd rs1 imm rfl; cases hb
    rw [eventsOf_of_some ha, transferBits_of_isBranch hb]
    by_cases hn : a = s.params.nativePc <;> simp [ha, hn, hb, hj, hr, hw, StatusBit.mask]
  · have hw : w ≠ 0x00008067#32 := fun e => by cases hret e
    rw [eventsOf_of_some ha]
    by_cases hn : s.jumpTarget off = s.params.nativePc <;>
      simp [ha, hn, hw, isBranch, transferBits, StatusBit.mask]
  · rw [eventsOf_of_some ha, ← isRet_iff_word hd]
    by_cases hn : s.ea rs1 imm = s.params.nativePc <;> cases hq : isRet rd rs1 imm <;>
      simp [ha, hn, hq, isBranch, transferBits, StatusBit.mask]

/-! ### What the host's operations change -/

theorem writeNamed_eq {s t : State} {n : String} {v : Word} (h : s.writeNamed n v = some t) :
    ∃ r, t = s.pokeX r v := by
  obtain ⟨r, -, rfl⟩ := Option.map_eq_some_iff.mp h
  exact ⟨r, rfl⟩

theorem setPcToIndex_eq {s t : State} {i : Nat} (h : s.setPcToIndex i = some t) :
    ∃ a, t = s.setPc a := by
  obtain ⟨a, -, rfl⟩ := Option.map_eq_some_iff.mp h
  exact ⟨a, rfl⟩

theorem setPcToName_eq {s t : State} {n : List Byte} (h : s.setPcToName n = some t) :
    ∃ a, t = s.setPc a := by
  obtain ⟨i, -, h⟩ := Option.bind_eq_some_iff.mp h
  exact setPcToIndex_eq h

theorem setHook_eq (s : State) (k : HookKind) (b : Bool) :
    ∃ hooks, s.setHook k b = { s with hooks := hooks } := by
  cases k <;> exact ⟨_, rfl⟩

/-- A map that answers changes nothing or fills one slot (R70). -/
theorem map_cases {s t : State} {b : HostBuffer} {n : Nat} {a : Word} (h : s.map b n = some (t, a)) :
    t = s ∨ ∃ k : Fin 16, n ≤ slotMax ∧
      t = { s with slots := s.slots.set k ⟨true, b.start, n, slotBase s.params.mapTag k⟩ } := by
  unfold State.map at h
  split at h
  · cases h; exact .inl rfl
  · next hn =>
    split at h
    · cases h; exact .inl rfl
    · next k _ =>
      split at h
      · cases h
      · cases h; exact .inr ⟨k, Nat.le_of_not_lt hn, rfl⟩

/-- An unmap changes nothing or makes one slot inactive (R71). -/
theorem unmap_cases (s : State) (a : Word) : (s.unmap a).1 = s ∨
    (s.unmap a).1 = { s with slots := s.slots.set (addrSlot a) { s.slotAt a with active := false } } := by
  unfold State.unmap
  split
  · exact .inr rfl
  · exact .inl rfl

theorem setArgs_eq (s : State) (i : Nat) (args : List Word) :
    ∃ x, s.setArgs i args = { s with x := x } := by
  induction args generalizing s i with
  | nil => exact ⟨s.x, rfl⟩
  | cons v vs ih =>
    rw [State.setArgs]
    split
    · obtain ⟨x, hx⟩ := ih (s.pokeX _ v) (i + 1)
      exact ⟨x, hx⟩
    · exact ih s (i + 1)

/-- The boot duties write integer registers, `pc` and the request, nothing else (R304). -/
theorem boot_eq (s : State) (args : List Word) (entry : Word) (e : Bool) :
    ∃ x, s.boot args entry e = { s with x := x, pc := entry, execEn := true, echoEn := e } := by
  obtain ⟨x, hx⟩ :=
    setArgs_eq (((s.pokeX 2 s.image.codeOrigin).pokeX 3 s.image.gp).pokeX 1 s.params.nativePc) 0 args
  exact ⟨x, by rw [State.boot, hx]; rfl⟩

/-- Settles O11: a step from a set flag is the stuck step, and each host operation's own equation
leaves the flag. -/
theorem faultFlagClearedOnlyByInitialisation : Obligations.FaultFlagClearedOnlyByInitialisation := by
  unfold Obligations.FaultFlagClearedOnlyByInitialisation
  intro s hf
  refine ⟨fun t h => ?_, fun _ _ => hf, fun _ _ => hf, fun _ _ => hf, fun _ => hf, fun n v t h => ?_,
    fun i t h => ?_, fun n t h => ?_, fun b n t a h => ?_, fun a => ?_, fun k b => ?_, fun _ _ => hf,
    fun _ => hf, fun _ _ => hf, fun args entry e => ?_, rfl⟩
  case refine_1 => rw [step_stuck hf] at h; cases h; exact hf
  case refine_2 => obtain ⟨r, rfl⟩ := writeNamed_eq h; exact hf
  case refine_3 => obtain ⟨a, rfl⟩ := setPcToIndex_eq h; exact hf
  case refine_4 => obtain ⟨a, rfl⟩ := setPcToName_eq h; exact hf
  case refine_5 => rcases map_cases h with rfl | ⟨k, -, rfl⟩ <;> exact hf
  case refine_6 => rcases unmap_cases s a with h | h <;> rw [h] <;> exact hf
  case refine_7 => obtain ⟨hooks, h⟩ := setHook_eq s k b; rw [h]; exact hf
  case refine_8 => obtain ⟨x, h⟩ := boot_eq s args entry e; rw [h]; exact hf

/-! ### The invariant under the host's operations and at initialisation -/

/-- A slot that is inactive, or within bounds at its own base, can be put at its index. -/
theorem slotsOk_setSlot {s : State} (h : s.slotsOk = true) (k : Fin 16) {sl : Slot}
    (hsl : sl.active = true → sl.size ≤ 0x10000 ∧ sl.base = slotBase s.params.mapTag k) :
    ({ s with slots := s.slots.set k sl } : State).slotsOk = true := by
  rw [slotsOk_iff] at h ⊢
  intro j hj
  by_cases hjk : j = k
  · subst hjk; simpa using hsl (by simpa using hj)
  · have hne : k.val ≠ j.val := fun e => hjk (Fin.ext e.symm)
    simpa [hne] using h j (by simpa [hne] using hj)

theorem inv_setSlot {s : State} (hi : s.Inv) (k : Fin 16) {sl : Slot}
    (hsl : sl.active = true → sl.size ≤ 0x10000 ∧ sl.base = slotBase s.params.mapTag k) :
    ({ s with slots := s.slots.set k sl } : State).Inv := by
  obtain ⟨hr, hl, hs, hq⟩ := hi
  exact ⟨hr, slotsOk_setSlot hl k hsl, hs, hq⟩

theorem inv_writeHost {s : State} (hi : s.Inv) (a : Nat) (bs : List Byte) : (s.writeHost a bs).Inv := by
  obtain ⟨hr, hl, hs, hq⟩ := hi
  obtain ⟨h1, h2, h3, h4, h5⟩ := (storesOk_iff s).1 hs
  exact ⟨hr, hl, (storesOk_iff _).2 ⟨h1, h2, Memory.wf_writeBytes h3 a bs, h4, h5⟩, hq⟩

/-- Every slot is inactive after initialisation (R52). -/
theorem initialise_inactive (p : Params) (img : Image) (host : Memory) (k : Fin 16) :
    ((State.initialise p img host).slots[k]).active = false := by
  simp [State.initialise, Slot.empty]

/-- Initialisation reaches the invariant if the regions and the stores it is given are in order. -/
theorem inv_initialise {p : Params} {img : Image} {host : Memory}
    (hr : (State.initialise p img host).regionsOk = true)
    (hs : (State.initialise p img host).storesOk = true) : (State.initialise p img host).Inv := by
  refine ⟨hr, (slotsOk_iff _).2 fun k hk => ?_, hs, rfl⟩
  rw [initialise_inactive] at hk
  cases hk

/-- Re-initialisation keeps the image and the host's memory, and empties the stack buffer. -/
theorem inv_reinitialise {s : State} (hi : s.Inv) : s.reinitialise.Inv := by
  obtain ⟨hr, -, hs, -⟩ := hi
  obtain ⟨-, h2, h3, -, h5⟩ := (storesOk_iff s).1 hs
  exact inv_initialise hr ((storesOk_iff _).2 ⟨rfl, h2, h3, rfl, h5⟩)

/-- Settles O54: most operations write nothing the invariant speaks of; a slot, the host's memory and
initialisation have a lemma each. -/
theorem invariantKeptByTheHost : Obligations.InvariantKeptByTheHost := by
  unfold Obligations.InvariantKeptByTheHost
  intro s hi
  refine ⟨fun b n t a h => ?_, fun a => ?_, fun _ _ => inv_congr hi rfl, fun n v t h => ?_,
    fun _ _ => inv_congr hi rfl, fun _ _ => inv_congr hi rfl, fun _ => inv_congr hi rfl,
    fun i t h => ?_, fun n t h => ?_, fun k b => ?_, fun a bs => inv_writeHost hi a bs,
    fun _ _ => inv_congr hi rfl, fun _ => inv_congr hi rfl, inv_reinitialise hi,
    fun args entry e => ?_⟩
  case refine_1 =>
    rcases map_cases h with rfl | ⟨k, hn, rfl⟩
    · exact hi
    · exact inv_setSlot hi k fun _ => ⟨hn, rfl⟩
  case refine_2 =>
    rcases unmap_cases s a with h | h <;> rw [h]
    · exact hi
    · exact inv_setSlot hi _ nofun
  case refine_3 => obtain ⟨r, rfl⟩ := writeNamed_eq h; exact inv_congr hi rfl
  case refine_4 => obtain ⟨a, rfl⟩ := setPcToIndex_eq h; exact inv_congr hi rfl
  case refine_5 => obtain ⟨a, rfl⟩ := setPcToName_eq h; exact inv_congr hi rfl
  case refine_6 => obtain ⟨hooks, h⟩ := setHook_eq s k b; rw [h]; exact inv_congr hi rfl
  case refine_7 => obtain ⟨x, h⟩ := boot_eq s args entry e; rw [h]; exact inv_congr hi rfl

/-- Settles O51: the fields of `State.initialise`, which reads of a state only what outlives it. -/
theorem initialisation : Obligations.Initialisation := by
  unfold Obligations.Initialisation
  refine ⟨fun p img host => ⟨rfl, rfl, rfl, rfl, rfl, initialise_inactive p img host, fun k => ?_⟩,
    fun s => ⟨rfl, fun t hi hm hp => ?_⟩⟩
  · cases k <;> rfl
  · simp only [State.reinitialise, hi, hm, hp]

/-- The tag of an implementation is not 0 (R64(a)). -/
theorem implementation_mapTag_ne_zero : Params.implementation.mapTag ≠ 0 := by
  simp only [Params.implementation]
  split
  · decide
  · next h => exact h

/-- The window of a tag other than 0 lies above the empty image. -/
theorem regionsOk_initialise_empty {p : Params} (h : p.mapTag ≠ 0) (host : Memory) :
    (State.initialise p Image.empty host).regionsOk = true := by
  have h0 : p.mapTag.toNat ≠ 0 := fun e => h (BitVec.eq_of_toNat_eq e)
  have hlow : 0x10000 ≤ p.mapTag.toNat * 2 ^ 24 := by omega
  simp only [State.regionsOk, State.tagLow, State.initialise, Image.empty]
  simpa using And.intro h hlow

/-- Settles O52: the empty image lies below the tag window, and nothing is mapped or stored. -/
theorem invariantAtReset : Obligations.InvariantAtReset := by
  unfold Obligations.InvariantAtReset
  exact ⟨inv_initialise (regionsOk_initialise_empty implementation_mapTag_ne_zero []) rfl, implementation_mapTag_ne_zero, by decide⟩

end Sys2Proof.Machine
end

section
/-!
SUPPORT and PROOFS. Guest memory (20_memory.md): the regions of the address space, reads and writes of
guest memory, the fetch, the memory map, and the statements about them.
-/

namespace Sys2Proof.Machine

/-! ### Tagged addresses (R64) -/

/-- The tag and the slot of an address are its leading bits. -/
theorem toNat_addrTag (a : Word) : (addrTag a).toNat = a.toNat / 2 ^ 24 := by
  rw [addrTag, toNat_field]; omega

theorem val_addrSlot (a : Word) : (addrSlot a).val = a.toNat / 2 ^ 20 % 16 := toNat_field a 20 4

theorem toNat_slotBase (tag : BitVec 8) (k : Fin 16) :
    (slotBase tag k).toNat = tag.toNat * 2 ^ 24 + k.val * 2 ^ 20 := by
  rw [slotBase, toNat_append_sum, toNat_append_sum]
  simp only [BitVec.toNat_ofFin, BitVec.toNat_ofNat]
  omega

/-- The addresses of a slot's mebibyte carry its tag and its index. -/
theorem tag_slot_of_toNat {a : Word} {tag : BitVec 8} {k : Fin 16} {j : Nat}
    (h : a.toNat = (slotBase tag k).toNat + j) (hj : j < 2 ^ 20) :
    addrTag a = tag ∧ addrSlot a = k := by
  rw [toNat_slotBase] at h
  constructor
  · apply BitVec.eq_of_toNat_eq
    rw [toNat_addrTag]; omega
  · apply Fin.ext
    rw [val_addrSlot]; omega

/-- An address lies above the base of the slot it names by its low 20 bits. -/
theorem toNat_eq_slotBase_add (a : Word) :
    a.toNat = (slotBase (addrTag a) (addrSlot a)).toNat + a.toNat % 2 ^ 20 := by
  rw [toNat_slotBase, toNat_addrTag, val_addrSlot]
  omega

theorem toNat_sub_slotBase (a : Word) :
    (a - slotBase (addrTag a) (addrSlot a)).toNat = a.toNat % 2 ^ 20 := by
  have ha := toNat_eq_slotBase_add a
  rw [BitVec.toNat_sub_of_le (BitVec.le_def.2 (by omega))]
  omega

/-! ### The resolver, an equation for each answer (R61) -/

theorem slotHit_iff (s : State) (a : Word) :
    s.slotHit a = true ↔ addrTag a = s.params.mapTag ∧ (s.slots[addrSlot a]).active = true := by
  simp only [State.slotHit, State.slotAt, Bool.and_eq_true, beq_iff_eq, and_comm]

section
variable {s : State} {a : Word}

theorem resolve_stack (h : 4 < a.toNat ∧ a.toNat < s.image.codeOrigin.toNat) :
    s.resolve a = some ⟨.stack, a.toNat, s.image.codeOrigin.toNat - a.toNat⟩ := by
  rw [State.resolve, if_pos h]

theorem resolve_slot (hs : ¬(4 < a.toNat ∧ a.toNat < s.image.codeOrigin.toNat))
    (hh : addrTag a = s.params.mapTag ∧ (s.slots[addrSlot a]).active = true) :
    s.resolve a = if (a - (s.slotAt a).base).toNat < (s.slotAt a).size then
      some ⟨.slot (addrSlot a), (a - (s.slotAt a).base).toNat,
        (s.slotAt a).size - (a - (s.slotAt a).base).toNat⟩ else none := by
  rw [State.resolve, if_neg hs, if_pos ((slotHit_iff s a).2 hh)]

theorem resolve_code (hs : ¬(4 < a.toNat ∧ a.toNat < s.image.codeOrigin.toNat))
    (hh : ¬(addrTag a = s.params.mapTag ∧ (s.slots[addrSlot a]).active = true))
    (hc : s.image.codeOrigin.toNat ≤ a.toNat) :
    s.resolve a = if a.toNat - s.image.codeOrigin.toNat < s.image.size then
      some ⟨.code, a.toNat - s.image.codeOrigin.toNat,
        s.image.size - (a.toNat - s.image.codeOrigin.toNat)⟩ else none := by
  rw [State.resolve, if_neg hs, if_neg (mt (slotHit_iff s a).1 hh), if_pos hc]

theorem resolve_low (hs : ¬(4 < a.toNat ∧ a.toNat < s.image.codeOrigin.toNat))
    (hh : ¬(addrTag a = s.params.mapTag ∧ (s.slots[addrSlot a]).active = true))
    (hc : a.toNat < s.image.codeOrigin.toNat) : s.resolve a = none := by
  rw [State.resolve, if_neg hs, if_neg (mt (slotHit_iff s a).1 hh), if_neg (Nat.not_le.2 hc)]

end

/-- Settles O19: each clause is one answer of the resolver. -/
theorem resolverPriorityOrder : Obligations.ResolverPriorityOrder := by
  unfold Obligations.ResolverPriorityOrder
  intro s a
  refine ⟨resolve_stack, fun hs hh ho => ?_, fun hs hh ho => ?_, fun hs hh hc ho => ?_,
    fun hs hh hc ho => ?_, resolve_low⟩
  · exact (resolve_slot hs hh).trans (if_pos ho)
  · exact (resolve_slot hs hh).trans (if_neg (Nat.not_lt.2 ho))
  · exact (resolve_code hs hh hc).trans (if_pos ho)
  · exact (resolve_code hs hh hc).trans (if_neg (Nat.not_lt.2 ho))

/-! ### The regions under the tag constraint (R63 to R65) -/

/-- The layout of the regions: the stack, then the code image, then the tag window. A window that
starts at a tag other than 0 cannot end below the stack or the code. -/
theorem regions_layout {s : State} (hi : s.Inv) :
    4 < s.image.codeOrigin.toNat ∧
      s.image.codeOrigin.toNat + s.image.size ≤ s.params.mapTag.toNat * 2 ^ 24 := by
  obtain ⟨h, -, -, -⟩ := hi
  simp only [State.regionsOk, Bool.and_eq_true, Bool.or_eq_true, decide_eq_true_eq,
    bne_iff_ne, and_assoc] at h
  obtain ⟨horigin, htag, hstack, hcode⟩ := h
  have h0 : s.params.mapTag.toNat ≠ 0 := fun e => htag (BitVec.eq_of_toNat_eq e)
  unfold State.tagLow at hstack hcode
  omega

section
variable {s : State} {a : Word} (hi : s.Inv)
include hi

/-- An active slot is within its bound and at its own base. -/
theorem active_slot {k : Fin 16} (hk : (s.slots[k]).active = true) :
    (s.slots[k]).size ≤ 0x10000 ∧ (s.slots[k]).base = slotBase s.params.mapTag k := by
  obtain ⟨-, hl, -, -⟩ := hi
  exact (slotsOk_iff s).1 hl k hk

/-- A tagged address lies above the stack and the code image. -/
theorem above_code_of_tagged (ht : addrTag a = s.params.mapTag) :
    s.image.codeOrigin.toNat + s.image.size ≤ a.toNat := by
  have hl := (regions_layout hi).2
  rw [← ht, toNat_addrTag] at hl
  omega

theorem resolve_slot_of_inv {k : Fin 16} {j : Nat} (hk : (s.slots[k]).active = true)
    (hj : j < (s.slots[k]).size) (ha : a.toNat = (slotBase s.params.mapTag k).toNat + j) :
    s.resolve a = some ⟨.slot k, j, (s.slots[k]).size - j⟩ := by
  obtain ⟨hsize, hbase⟩ := active_slot hi hk
  obtain ⟨ht, rfl⟩ := tag_slot_of_toNat ha (by omega)
  have hc := above_code_of_tagged hi ht
  have hoff : (a - (s.slots[addrSlot a]).base).toNat = j := by
    rw [hbase, BitVec.toNat_sub_of_le (BitVec.le_def.2 (by omega))]; omega
  rw [resolve_slot (by omega) ⟨ht, hk⟩, State.slotAt, hoff, if_pos hj]

theorem resolve_beyond_slot (ht : addrTag a = s.params.mapTag)
    (hk : (s.slots[addrSlot a]).active = true) (hj : (s.slots[addrSlot a]).size ≤ a.toNat % 2 ^ 20) :
    s.resolve a = none := by
  obtain ⟨-, hbase⟩ := active_slot hi hk
  have hc := above_code_of_tagged hi ht
  rw [resolve_slot (by omega) ⟨ht, hk⟩, State.slotAt, hbase, ← ht, toNat_sub_slotBase,
    if_neg (Nat.not_lt.2 hj)]

theorem resolve_inactive_slot (ht : addrTag a = s.params.mapTag)
    (hk : (s.slots[addrSlot a]).active = false) : s.resolve a = none := by
  have hc := above_code_of_tagged hi ht
  have hh : ¬(addrTag a = s.params.mapTag ∧ (s.slots[addrSlot a]).active = true) :=
    fun h => Bool.false_ne_true (hk.symm.trans h.2)
  rw [resolve_code (by omega) hh (by omega), if_neg (by omega)]

theorem resolve_code_of_inv (h1 : s.image.codeOrigin.toNat ≤ a.toNat)
    (h2 : a.toNat < s.image.codeOrigin.toNat + s.image.size) :
    s.resolve a = some ⟨.code, a.toNat - s.image.codeOrigin.toNat,
      s.image.size - (a.toNat - s.image.codeOrigin.toNat)⟩ := by
  have ht : addrTag a ≠ s.params.mapTag := fun ht => by have := above_code_of_tagged hi ht; omega
  rw [resolve_code (by omega) (fun h => ht h.1) h1, if_pos (by omega)]

/-- Above the code image only the bytes of active slots resolve. -/
theorem resolve_outside (h : s.image.codeOrigin.toNat + s.image.size ≤ a.toNat)
    (hs : ∀ k : Fin 16, (s.slots[k]).active = true → a.toNat < (slotBase s.params.mapTag k).toNat ∨
      (slotBase s.params.mapTag k).toNat + (s.slots[k]).size ≤ a.toNat) : s.resolve a = none := by
  by_cases hh : addrTag a = s.params.mapTag ∧ (s.slots[addrSlot a]).active = true
  · obtain ⟨ht, hk⟩ := hh
    have ha := toNat_eq_slotBase_add a
    have := hs _ hk
    rw [← ht] at this
    exact resolve_beyond_slot hi ht hk (by omega)
  · rw [resolve_code (by omega) hh (by omega), if_neg (by omega)]

end

/-- Settles O20: the stack and the code image lie below the tag window, a slot inside its own
mebibyte of it. -/
theorem regionsOfTheAddressSpace : Obligations.RegionsOfTheAddressSpace := by
  unfold Obligations.RegionsOfTheAddressSpace
  intro s hi a
  obtain ⟨horigin, hwindow⟩ := regions_layout hi
  refine ⟨fun h => ?_, fun h1 h2 => resolve_stack ⟨h1, h2⟩, fun k j => resolve_slot_of_inv hi,
    resolve_code_of_inv hi, resolve_outside hi, resolve_inactive_slot hi, fun ht hk h => ?_⟩
  · have ht : addrTag a ≠ s.params.mapTag := fun ht => by have := above_code_of_tagged hi ht; omega
    exact resolve_low (by omega) (fun hh => ht hh.1) (by omega)
  · exact resolve_beyond_slot hi ht hk (by simpa [toNat_field] using h)

/-! ### The place of an access (R62) -/

section
variable {s : State} {a : Word}

theorem accessPlace_none (h : s.resolve a = none) (n : Nat) : s.accessPlace a n = .unresolved := by
  simp only [State.accessPlace, h]

theorem accessPlace_some {v : View} (h : s.resolve a = some v) (n : Nat) :
    s.accessPlace a n = if v.len < n then .overrun else .done (s.viewPlace v) := by
  simp only [State.accessPlace, h]

theorem accessPlace_short {v : View} {n : Nat} (h : s.resolve a = some v) (hn : v.len < n) :
    s.accessPlace a n = .overrun := by
  rw [accessPlace_some h, if_pos hn]

theorem accessPlace_fits {v : View} {n : Nat} (h : s.resolve a = some v) (hn : n ≤ v.len) :
    s.accessPlace a n = .done (s.viewPlace v) := by
  rw [accessPlace_some h, if_neg (Nat.not_lt.2 hn)]

/-- An access that has a place starts where its address resolves and fits what is left there. -/
theorem accessPlace_eq_done {n : Nat} {q : Place} (h : s.accessPlace a n = .done q) :
    ∃ v, s.resolve a = some v ∧ n ≤ v.len ∧ q = s.viewPlace v := by
  cases hv : s.resolve a with
  | none => rw [accessPlace_none hv] at h; cases h
  | some v =>
    rw [accessPlace_some hv] at h
    split at h
    · cases h
    · next hn => cases h; exact ⟨v, rfl, Nat.not_lt.1 hn, rfl⟩

end

/-! ### Reads -/

theorem Memory.ofNat_readLE_one (m : Memory) (a : Nat) : BitVec.ofNat 8 (m.readLE a 1) = m.read a := by
  simp [Memory.readLE]

theorem Memory.ofNat_readLE_two (m : Memory) (a : Nat) :
    BitVec.ofNat 16 (m.readLE a 2) = m.read (a + 1) ++ m.read a := by
  apply BitVec.eq_of_toNat_eq
  simp only [toNat_append_sum, BitVec.toNat_ofNat, Memory.readLE]
  omega

theorem Memory.ofNat_readLE_four (m : Memory) (a : Nat) :
    BitVec.ofNat 32 (m.readLE a 4) =
      m.read (a + 3) ++ m.read (a + 2) ++ m.read (a + 1) ++ m.read a := by
  apply BitVec.eq_of_toNat_eq
  simp only [toNat_append_sum, BitVec.toNat_ofNat, Memory.readLE]
  simp only [Nat.add_assoc, Nat.reduceAdd]
  omega

/-- A read that fits the view of its address reads the view's own bytes. -/
theorem memRead_fits {s : State} {a : Word} {v : View} {n : Nat} (h : s.resolve a = some v)
    (hn : n ≤ v.len) : s.memRead a n = .done (BitVec.ofNat (8 * n)
      ((s.bank (s.viewPlace v).bank).readLE (s.viewPlace v).index n)) :=
  memRead_done (accessPlace_fits h hn)

/-- Settles O21: a read at the place of the view, by the number of its bytes. -/
theorem readsAssembleLittleEndian : Obligations.ReadsAssembleLittleEndian := by
  unfold Obligations.ReadsAssembleLittleEndian
  intro s a
  refine ⟨fun n h => memRead_unresolved (accessPlace_none h n),
    fun n v h hn => memRead_overrun (accessPlace_short h hn), fun v h => ?_⟩
  obtain ⟨r, off, len⟩ := v
  have read1 (hn : 1 ≤ len) := (memRead_fits h hn).trans (congrArg _ (Memory.ofNat_readLE_one _ _))
  have read2 (hn : 2 ≤ len) := (memRead_fits h hn).trans (congrArg _ (Memory.ofNat_readLE_two _ _))
  have read4 (hn : 4 ≤ len) := (memRead_fits h hn).trans (congrArg _ (Memory.ofNat_readLE_four _ _))
  cases r <;> exact ⟨read1, read2, read4⟩

/-! ### Writes -/

/-- Settles O22: a write stores its bytes at the place of the view. -/
theorem writesPlaceEachByte : Obligations.WritesPlaceEachByte := by
  unfold Obligations.WritesPlaceEachByte
  intro s a n v
  refine ⟨fun h => memWrite_unresolved v (accessPlace_none h n),
    fun r h hn => memWrite_overrun v (accessPlace_short h hn), fun r h hn =>
    ⟨_, memWrite_done v (accessPlace_fits h hn), fun hwf i hin => ?_, ?_,
      sameFrame_storeAt s _ _, by simp, by simp, by simp, by simp, by simp, by simp⟩⟩
  · rw [readPlace_storeAt_at hwf _ i (by simpa using hin), leBytes_getElem]
  · simpa using sameBytesBut_storeAt s (s.viewPlace r) (leBytes n v)

/-- Bytes that are the bytes of a value read as the value. -/
theorem Memory.ofNat_readLE_of_bytes {m : Memory} {a n : Nat} (v : BitVec (8 * n))
    (h : ∀ i < n, m.read (a + i) = v.extractLsb' (8 * i) 8) :
    BitVec.ofNat (8 * n) (m.readLE a n) = v := by
  have hv := Memory.readLE_of_bytes (m := m) (a := a) (k := 0) (n := n) v.toNat
    (by simpa using v.isLt) fun i hi => by rw [h i hi, toNat_field]; simp
  rw [hv]
  simp

/-- Part of a value written reads back as that part of the value. -/
theorem Memory.readLE_writeBytes_part {m : Memory} (hm : m.wf = true) (a : Nat) {n k j : Nat}
    (v : BitVec (8 * n)) (hk : k + j ≤ n) :
    BitVec.ofNat (8 * j) ((m.writeBytes a (leBytes n v)).readLE (a + k) j) =
      v.extractLsb' (8 * k) (8 * j) := by
  apply Memory.ofNat_readLE_of_bytes
  intro i hi
  rw [Nat.add_assoc, Memory.read_writeBytes_at hm a _ (k + i) (by simp; omega), leBytes_getElem,
    Nat.mul_add]
  ext l hl
  simp [show 8 * i + l < 8 * j by omega, Nat.add_assoc]

theorem bank_wf {s : State} (h : s.storesOk = true) (b : Bank) : (s.bank b).wf = true := by
  obtain ⟨h1, h2, h3, -, -⟩ := (storesOk_iff s).1 h
  cases b
  · exact h1
  · exact h2
  · exact h3

/-- The address `i` bytes above one that resolves, inside its view, is in the same region `i` bytes
further. -/
theorem resolve_add {s : State} (hi : s.Inv) {a : Word} {v : View} (h : s.resolve a = some v) {i : Nat}
    (hv : i < v.len) (ha : a.toNat + i < 2 ^ 32) :
    s.resolve (a + BitVec.ofNat 32 i) = some ⟨v.region, v.off + i, v.len - i⟩ := by
  have hn : (a + BitVec.ofNat 32 i).toNat = a.toNat + i := by
    rw [BitVec.toNat_add, BitVec.toNat_ofNat]; omega
  rcases resolve_some h with ⟨h1, h2, rfl⟩ | ⟨hh, h2, rfl⟩ | ⟨h1, h2, rfl⟩
  · rw [resolve_stack (by simp only at hv; omega), hn]
    simp only [Nat.sub_sub]
  · obtain ⟨ht, hk⟩ := (slotHit_iff s a).1 hh
    have hoff := toNat_sub_slotBase a
    have hbase := toNat_eq_slotBase_add a
    rw [ht] at hoff hbase
    simp only [State.slotAt, (active_slot hi hk).2, hoff] at hv ⊢
    rw [resolve_slot_of_inv hi (k := addrSlot a) (j := a.toNat % 2 ^ 20 + i) hk (by omega) (by omega)]
    simp only [Nat.sub_sub]
  · simp only at hv ⊢
    rw [resolve_code_of_inv hi (by omega) (by omega), hn, Nat.sub_add_comm h1, Nat.sub_sub]

/-- The place of a view moves with its offset. -/
theorem viewPlace_add (s : State) (v : View) (i l : Nat) :
    s.viewPlace ⟨v.region, v.off + i, l⟩ = ⟨(s.viewPlace v).bank, (s.viewPlace v).index + i⟩ := by
  obtain ⟨r, off, len⟩ := v
  cases r <;> simp [State.viewPlace, Nat.add_assoc]

/-- A read inside what a write stored gives the part of the value it covers. -/
theorem memRead_part_of_memWrite {s t : State} {a : Word} {n : Nat} {v : BitVec (8 * n)} (hi : s.Inv)
    (h : s.memWrite a n v = .done t) {k j : Nat} (hj : 0 < j) (hk : k + j ≤ n)
    (ha : a.toNat + k < 2 ^ 32) :
    t.memRead (a + BitVec.ofNat 32 k) j = .done (v.extractLsb' (8 * k) (8 * j)) := by
  obtain ⟨q, hq, rfl⟩ := memWrite_eq_done h
  obtain ⟨w, hw, hn, rfl⟩ := accessPlace_eq_done hq
  have hf := sameFrame_storeAt s (s.viewPlace w) (leBytes n v)
  have ⟨_, _, hs, _⟩ := hi
  have hr := resolve_add hi hw (i := k) (by omega) ha
  rw [← resolve_congr hf] at hr
  rw [memRead_fits hr (by simp only; omega), viewPlace_congr hf, viewPlace_add, bank_storeAt,
    if_pos rfl, Memory.readLE_writeBytes_part (bank_wf hs _) _ v hk]

/-- Settles O23: what a write stored reads back whole at the same place, and by parts where the
address of the part resolves in the same region. -/
theorem readAfterWrite : Obligations.ReadAfterWrite := by
  unfold Obligations.ReadAfterWrite
  refine ⟨fun s t a n v hs h => ?_, fun s t a v hi ha h => ?_⟩
  · obtain ⟨q, hq, rfl⟩ := memWrite_eq_done h
    have hf := sameFrame_storeAt s q (leBytes n v)
    refine ⟨?_, storesOk_storeAt hs hq (leBytes_length n v)⟩
    rw [memRead_done ((accessPlace_congr hf a n).trans hq), bank_storeAt, if_pos rfl,
      Memory.readLE_writeBytes (bank_wf hs _)]
  · have part : ∀ k j, 0 < j → k + j ≤ 4 →
        t.memRead (a + BitVec.ofNat 32 k) j = .done (v.extractLsb' (8 * k) (8 * j)) :=
      fun k j hj hk => memRead_part_of_memWrite hi h hj hk (by omega)
    refine ⟨?_, ?_, part 2 2 (by omega) (by omega), part 3 1 (by omega) (by omega)⟩
    · simpa using part 0 1 (by omega) (by omega)
    · simpa using part 0 2 (by omega) (by omega)

/-! ### Loads and stores that are skipped or refused (R82, R62) -/

section
variable {s : State} {a : Word} {v : View} {n : Nat} (h : s.resolve a = some v)
include h

theorem load_short (hn : v.len < n) (w : State → BitVec (8 * n) → State) :
    s.load a n w = .refused .accessOverrun := by
  simp only [State.load, memRead_overrun (accessPlace_short h hn)]

theorem load_fits (hn : n ≤ v.len) (w : State → BitVec (8 * n) → State) :
    ∃ t, s.load a n w = .next t :=
  ⟨_, load_done (memRead_fits h hn) w⟩

theorem store_short (hn : v.len < n) (u : BitVec (8 * n)) :
    s.store a n u = .refused .accessOverrun := by
  simp only [State.store, memWrite_overrun u (accessPlace_short h hn)]

theorem store_fits (hn : n ≤ v.len) (u : BitVec (8 * n)) : ∃ t, s.store a n u = .next t :=
  ⟨_, store_done (accessPlace_fits h hn) u⟩

end

/-- Settles O32: every one of these instructions is a load or a store at the address. -/
theorem unresolvedAccessIsSkipped : Obligations.UnresolvedAccessIsSkipped := by
  unfold Obligations.UnresolvedAccessIsSkipped
  intro s rd rs1 rs2 imm h
  simp only [exec, execLb, execLh, execLw, execLbu, execLhu, execSb, execSh, execSw, execFlw, execFsw]
  exact ⟨load_unresolved h 1 _, load_unresolved h 2 _, load_unresolved h 4 _, load_unresolved h 1 _,
    load_unresolved h 2 _, store_unresolved h 1 _, store_unresolved h 2 _, store_unresolved h 4 _,
    load_unresolved h 4 _, store_unresolved h 4 _⟩

/-- Settles O33: every one of these instructions is a load or a store at the address; a view has a
byte at least. -/
theorem overrunIsRefused : Obligations.OverrunIsRefused := by
  unfold Obligations.OverrunIsRefused
  intro s rd rs1 rs2 imm v h
  have h1 : 1 ≤ v.len := resolve_len_pos h
  simp only [exec, execLb, execLh, execLw, execLbu, execLhu, execSb, execSh, execSw, execFlw, execFsw]
  exact ⟨(load_short h · _), (load_fits h · _), (load_short h · _), (load_fits h · _),
    (store_short h · _), (store_fits h · _), (load_short h · _), (load_fits h · _),
    (store_short h · _), (store_fits h · _), (load_short h · _), (load_fits h · _),
    (store_short h · _), (store_fits h · _), load_fits h h1 _, load_fits h h1 _, store_fits h h1 _⟩

/-! ### The fetch (R75) -/

theorem pcAligned_iff (s : State) : s.pcAligned = true ↔ s.pc.toNat % 4 = 0 := by
  rw [State.pcAligned, beq_iff_eq, ← BitVec.toNat_inj, toNat_field]
  simp

theorem fetchInside_iff (s : State) : s.fetchInside = true ↔
    s.image.codeOrigin.toNat ≤ s.pc.toNat ∧
      s.pc.toNat - s.image.codeOrigin.toNat + 4 ≤ s.image.size := by
  simp only [State.fetchInside, Bool.and_eq_true, decide_eq_true_eq]

theorem fetch_misaligned {s : State} (h : s.pcAligned = false) : s.fetch = .error .misalignedFetch := by
  simp [State.fetch, h]

theorem fetch_outside {s : State} (ha : s.pcAligned = true) (hc : s.fetchInside = false) :
    s.fetch = .error .fetchOutsideCode := by
  simp [State.fetch, ha, hc]

theorem fetch_inside {s : State} (ha : s.pcAligned = true) (hc : s.fetchInside = true) :
    s.fetch = .ok s.codeWord := by
  simp [State.fetch, ha, hc]

/-- Settles O8: the two tests of the fetch in their order, and the word of the code image. -/
theorem fetchReadsCodeOnly : Obligations.FetchReadsCodeOnly := by
  unfold Obligations.FetchReadsCodeOnly
  intro s
  refine ⟨fun ha => ?_, fun ha hc => ?_, fun ha h1 h2 => ?_⟩
  · exact fetch_misaligned (Bool.eq_false_iff.2 fun h => ha ((pcAligned_iff s).1 h))
  · refine fetch_outside ((pcAligned_iff s).2 ha) (Bool.eq_false_iff.2 fun h => ?_)
    obtain ⟨h1, h2⟩ := (fetchInside_iff s).1 h
    omega
  · rw [fetch_inside ((pcAligned_iff s).2 ha) ((fetchInside_iff s).2 ⟨h1, h2⟩), State.codeWord,
      Memory.ofNat_readLE_four]

/-- An address that resolves into the code image is not below its origin. -/
theorem codeOrigin_le_of_resolve_code {s : State} {a : Word} {off len : Nat}
    (h : s.resolve a = some ⟨.code, off, len⟩) : s.image.codeOrigin.toNat ≤ a.toNat := by
  rcases resolve_some h with ⟨-, -, hv⟩ | ⟨-, -, hv⟩ | ⟨hc, -, -⟩
  · cases hv
  · cases hv
  · exact hc

/-- A word stored in the code image is fetched from there. -/
theorem fetch_of_stored {t : State} {m : Memory} {w : Word} (hm : m.wf = true)
    (ha : t.pc.toNat % 4 = 0) (hc : t.image.codeOrigin.toNat ≤ t.pc.toNat)
    (hs : t.pc.toNat - t.image.codeOrigin.toNat + 4 ≤ t.image.size)
    (h : t.image.code = m.writeBytes (t.pc.toNat - t.image.codeOrigin.toNat) (leBytes 4 w)) :
    t.fetch = .ok w := by
  rw [fetch_inside ((pcAligned_iff t).2 ha) ((fetchInside_iff t).2 ⟨hc, hs⟩), State.codeWord, h]
  exact congrArg _ (Memory.readLE_writeBytes hm _ 4 w)

/-- Settles O24: the store puts its word at the offset of `pc + 4` in the code image, which is where
the next state fetches. -/
theorem storeIntoCodeIsFetchedNext : Obligations.StoreIntoCodeIsFetchedNext := by
  unfold Obligations.StoreIntoCodeIsFetchedNext
  intro s t rs1 rs2 imm hs ha hx hal hr
  change s.store (s.readX rs1 + imm.signExtend 32) 4 (s.readX rs2) = .next t at hx
  rw [ha] at hx
  have hlen : 4 ≤ s.image.size - ((s.pc + 4).toNat - s.image.codeOrigin.toNat) := by
    refine Nat.not_lt.1 fun hn => ?_
    rw [store_short hr hn] at hx
    cases hx
  rw [store_done (accessPlace_fits hr hlen)] at hx
  cases hx
  refine ⟨by simp, fetch_of_stored (m := s.image.code) (bank_wf hs .code) ?_ ?_ ?_ ?_⟩
  · simpa using hal
  · exact codeOrigin_le_of_resolve_code hr
  · change (s.pc + 4).toNat - s.image.codeOrigin.toNat + 4 ≤ s.image.size
    omega
  · rfl

/-! ### Placing a word (log entry 5) -/

theorem tableWord_toNat (w : Word) : tableWord 32 w.toNat = w := by
  rw [tableWord, Nat.mod_eq_of_lt w.isLt, BitVec.ofNat_toNat, BitVec.setWidth_eq]

/-- The spot is an aligned word of the image: the one `pc` names already, or the first aligned address
of the code region; only `pc` and the size of the image change. -/
theorem fetchSpot_eq {s : State} (ho : s.image.codeOrigin.toNat ≤ 0xFFFFFFFC) :
    ∃ (pc : Word) (size : Nat),
    s.fetchSpot = { s with pc := pc, image := { s.image with size := size } } ∧
    pc.toNat % 4 = 0 ∧ s.image.codeOrigin.toNat ≤ pc.toNat ∧
    pc.toNat - s.image.codeOrigin.toNat + 4 ≤ size ∧
    (s.pcAligned = true → s.fetchInside = true → pc = s.pc) := by
  by_cases h : s.pcAligned = true ∧ s.fetchInside = true
  · obtain ⟨ha, hc⟩ := h
    obtain ⟨h1, h2⟩ := (fetchInside_iff s).1 hc
    exact ⟨s.pc, s.image.size, by simp [State.fetchSpot, ha, hc], (pcAligned_iff s).1 ha, h1, h2,
      fun _ _ => rfl⟩
  · have hspot : (BitVec.ofNat 32 ((s.image.codeOrigin.toNat + 3) / 4 * 4)).toNat =
        (s.image.codeOrigin.toNat + 3) / 4 * 4 := by
      rw [BitVec.toNat_ofNat, Nat.mod_eq_of_lt (by omega)]
    refine ⟨BitVec.ofNat 32 ((s.image.codeOrigin.toNat + 3) / 4 * 4),
      max s.image.size ((s.image.codeOrigin.toNat + 3) / 4 * 4 - s.image.codeOrigin.toNat + 4),
      ?_, ?_, ?_, ?_, fun ha hc => absurd ⟨ha, hc⟩ h⟩
    · rw [State.fetchSpot, if_neg (by simpa using h)]
      simp only [if_pos ho, hspot]
    all_goals rw [hspot]; omega

/-- Settles O59: the word is stored at the spot, which is `pc` itself where `pc` was ready. -/
theorem placedWordIsFetchedNext : Obligations.PlacedWordIsFetchedNext := by
  unfold Obligations.PlacedWordIsFetchedNext
  intro s w hm ho
  obtain ⟨pc, size, hspot, ha, hc, hs, hpc⟩ := fetchSpot_eq ho
  simp only [State.withFetchWord, tableWord_toNat, State.placeWord, hspot, true_and]
  refine ⟨fetch_of_stored hm ha hc hs rfl, ?_⟩
  cases ha : s.pcAligned with
  | false => exact .inl (fetch_misaligned ha)
  | true =>
    cases hc : s.fetchInside with
    | false => exact .inr (.inl (fetch_outside ha hc))
    | true => exact .inr (.inr (hpc ha hc))

/-! ### The memory map (R70, R71) -/

theorem freeSlot_full {s : State} (h : ∀ k : Fin 16, (s.slots[k]).active = true) :
    s.freeSlot = none := by
  rw [State.freeSlot, List.find?_eq_none]
  intro k _
  rw [h k]
  decide

/-- The slot found is the least inactive one. -/
theorem freeSlot_least {s : State} {k : Fin 16} (hk : (s.slots[k]).active = false)
    (hl : ∀ j : Fin 16, j < k → (s.slots[j]).active = true) : s.freeSlot = some k := by
  rw [State.freeSlot, List.find?_eq_some_iff_getElem]
  refine ⟨by rw [hk]; rfl, k.val, by simp, by simp, fun j hj => ?_⟩
  have hj := hl ⟨j, by omega⟩ hj
  simpa using hj

/-- The map of a buffer that is long enough. -/
theorem map_eq_of_freeSlot {s : State} {k : Fin 16} {b : HostBuffer} {n : Nat} (h : s.freeSlot = some k)
    (hn : n ≤ slotMax) (hb : n ≤ b.len) : s.map b n =
      some ({ s with slots := s.slots.set k ⟨true, b.start, n, slotBase s.params.mapTag k⟩ },
        slotBase s.params.mapTag k) := by
  simp only [State.map, if_neg (Nat.not_lt.2 hn), h, if_neg (Nat.not_lt.2 hb)]

theorem map_full {s : State} (h : s.freeSlot = none) (b : HostBuffer) (n : Nat) :
    s.map b n = some (s, 0) := by
  unfold State.map
  split
  · rfl
  · rw [h]

theorem unmap_tagged {s : State} {a : Word} (h : addrTag a = s.params.mapTag) : s.unmap a =
    ({ s with slots := s.slots.set (addrSlot a) { s.slotAt a with active := false } }, true) := by
  rw [State.unmap, if_pos h]

theorem getElem_setSlot_same (v : Vector Slot 16) (k : Fin 16) (sl : Slot) : (v.set k sl)[k] = sl := by
  simp

theorem getElem_setSlot_other (v : Vector Slot 16) {j k : Fin 16} (sl : Slot) (h : j ≠ k) :
    (v.set k sl)[j] = v[j] := by
  simp [Fin.val_inj, h.symm]

/-- The slot an unmapped address names is inactive afterwards. -/
theorem unmap_inactive {s : State} {a : Word} {k : Fin 16} (h : addrTag a = s.params.mapTag)
    (hk : k = addrSlot a) : ((s.unmap a).1.slots[k]).active = false := by
  subst hk
  rw [unmap_tagged h]
  exact congrArg Slot.active (getElem_setSlot_same _ _ _)

/-- Settles O55: the equations of map and unmap; an unmapped slot is inactive, so its addresses no
longer resolve. -/
theorem mapAndUnmap : Obligations.MapAndUnmap := by
  unfold Obligations.MapAndUnmap
  refine ⟨fun s b n => ⟨fun h => ?_, fun h => map_full (freeSlot_full h) b n, fun k hn hb hk hl => ?_⟩,
    fun s a => ⟨fun ht => ?_, fun ht => ?_, fun hi ht c hc hs => ?_⟩⟩
  · exact if_pos h
  · exact ⟨_, map_eq_of_freeSlot (freeSlot_least hk hl) hn hb, getElem_setSlot_same _ _ _,
      fun j hj => getElem_setSlot_other _ _ hj, rfl⟩
  · refine ⟨by rw [unmap_tagged ht], unmap_inactive ht rfl, ?_⟩
    rw [unmap_tagged ht]
    exact ⟨fun j hj => getElem_setSlot_other _ _ hj, rfl⟩
  · exact if_neg ht
  · obtain ⟨-, hu, -⟩ := invariantKeptByTheHost s hi
    refine resolve_inactive_slot (hu a) ?_ (unmap_inactive ht hs)
    rw [unmap_tagged ht]
    exact hc

end Sys2Proof.Machine
end

section
/-!
SUPPORT and PROOFS. Encoding and decoding (30_encoding.md): the word of an instruction and the instruction
of a word, the unrecognised words, the dispatch of a step, and the statements about them.
-/

namespace Sys2Proof.Laws.EncodesOwnRow

/-- The family, for every instruction. -/
theorem all (i : Instr) : Statement i := by
  cases i
  exacts [
    lui _ _, auipc _ _, addi _ _ _, slti _ _ _, sltiu _ _ _, xori _ _ _, ori _ _ _, andi _ _ _,
    slli _ _ _, srli _ _ _, srai _ _ _, add _ _ _, sub _ _ _, sll _ _ _, slt _ _ _, sltu _ _ _,
    xor _ _ _, srl _ _ _, sra _ _ _, or _ _ _, and _ _ _, mul _ _ _, mulh _ _ _, mulhsu _ _ _,
    mulhu _ _ _, div _ _ _, divu _ _ _, rem _ _ _, remu _ _ _, lb _ _ _, lh _ _ _, lw _ _ _,
    lbu _ _ _, lhu _ _ _, sb _ _ _, sh _ _ _, sw _ _ _, beq _ _ _, bne _ _ _, blt _ _ _, bge _ _ _,
    bltu _ _ _, bgeu _ _ _, jal _ _, jalr _ _ _, ecall, ebreak, atomicGroup _ _ _ _ _,
    bitmanipGroup _, flw _ _ _, fsw _ _ _, fld _ _ _, fsd _ _ _, faddS _ _ _ _, fsubS _ _ _ _,
    fmulS _ _ _ _, fdivS _ _ _ _, fsqrtS _ _ _, fsgnjS _ _ _, fsgnjnS _ _ _, fsgnjxS _ _ _,
    fminS _ _ _, fmaxS _ _ _, fcvtWS _ _ _, fcvtWuS _ _ _, fmvXW _ _, feqS _ _ _, fltS _ _ _,
    fleS _ _ _, fcvtSW _ _ _, fcvtSWu _ _ _, fmvWX _ _, fmaddS _ _ _ _ _, fmsubS _ _ _ _ _,
    fnmsubS _ _ _ _ _, fnmaddS _ _ _ _ _, faddD _ _ _ _, fsubD _ _ _ _, fmulD _ _ _ _,
    fdivD _ _ _ _, fsqrtD _ _ _, fsgnjD _ _ _, fsgnjnD _ _ _, fsgnjxD _ _ _, fminD _ _ _,
    fmaxD _ _ _, fcvtSD _ _ _, fcvtDS _ _ _, feqD _ _ _, fltD _ _ _, fleD _ _ _, fclassD _ _,
    fcvtWD _ _ _, fcvtWuD _ _ _, fcvtDW _ _ _, fcvtDWu _ _ _, fmaddD _ _ _ _ _, fmsubD _ _ _ _ _,
    fnmsubD _ _ _ _ _, fnmaddD _ _ _ _ _]

end Sys2Proof.Laws.EncodesOwnRow

namespace Sys2Proof

open Machine

theorem decode_of_fits {p : Params} {w : Word} {r : Row} (h32 : is32 w = true) (hr : r ∈ opcodeRows)
    (hf : r.sel.fits w = true) : decode p w = some (r.build w) := by
  simp [decode, h32, rowOf_of_fits hr hf]

theorem decode_of_selectsBitmanip {p : Params} {w : Word} (h32 : is32 w = true)
    (hr : rowOf w = none) (hb : p.selectsBitmanip w = true) :
    decode p w = some (.bitmanipGroup w) := by
  simp [decode, h32, hr, hb]

theorem decode_unselected {p : Params} {w : Word} (hr : rowOf w = none)
    (hb : p.selectsBitmanip w = false) : decode p w = none := by
  simp [decode, hr, hb]

theorem encodable_bitmanipGroup {p : Params} {w : Word} : (Instr.bitmanipGroup w).encodable p = true ↔
    is32 w = true ∧ rowOf w = none ∧ p.selectsBitmanip w = true := by
  simp [Instr.encodable, Instr.wf]

theorem wf_of_encodable {p : Params} {i : Instr} (h : i.encodable p = true) : i.wf = true := by
  simp only [Instr.encodable, Bool.and_eq_true] at h
  exact h.1

/-- Settles O5: an instruction's word fits its own row, which reads it back and is the row the decoder
finds; a word of the bit-manipulation group is read as itself. -/
theorem decodeOfEncode : Obligations.DecodeOfEncode := by
  unfold Obligations.DecodeOfEncode
  intro p i h
  obtain ⟨h32, ⟨r, hr, hf, hb⟩ | ⟨w, rfl, -⟩⟩ := Laws.EncodesOwnRow.all i (wf_of_encodable h)
  · rw [decode_of_fits h32 hr hf, hb]
  · obtain ⟨-, hn, hs⟩ := encodable_bitmanipGroup.1 h
    exact decode_of_selectsBitmanip h32 hn hs

theorem decode_of_encode_eq {p : Params} {i : Instr} {w : Word} (hw : encode i = w)
    (h : i.encodable p = true) : decode p w = some i :=
  hw ▸ decodeOfEncode p i h

/-- Settles O1: each of these words is the encoding of its instruction. -/
theorem sampleWordsDecode : Obligations.SampleWordsDecode := by
  unfold Obligations.SampleWordsDecode
  intro p
  and_intros <;> exact decode_of_encode_eq (by decide) rfl

/-- Settles O4: the rows clash pairwise, so the one row of the table a word fits is found in any order. -/
theorem opcodeTableUnambiguous : Obligations.OpcodeTableUnambiguous := by
  unfold Obligations.OpcodeTableUnambiguous
  refine ⟨opcodeRows_clash.imp Selector.not_fits_of_clash, fun w r hr hw => rowOf_of_fits hr hw,
    fun rows hp w => ?_⟩
  cases h : rows.find? (·.sel.fits w) with
  | some r =>
    have hf : r.sel.fits w = true := by simpa using List.find?_some h
    exact (rowOf_of_fits (hp.mem_iff.1 (List.mem_of_find?_eq_some h)) hf).symm
  | none =>
    rw [List.find?_eq_none] at h
    exact (List.find?_eq_none.2 fun r hr => h r (hp.mem_iff.2 hr)).symm

/-! ### The word of a decoded instruction -/

theorem all_beq_iff {α : Type} [DecidableEq α] (o : Option α) (a : α) :
    o.all (· == a) = true ↔ o.getD a = a := by
  cases o <;> simp

/-- A word fits a selector when each field is what the selector fixes it to, if it fixes it. -/
theorem fits_iff {x : Selector} {w : Word} : x.fits w = true ↔
    Field.opcode w = x.opcode ∧ x.funct3.getD (Field.funct3 w) = Field.funct3 w ∧
    x.funct7.getD (Field.funct7 w) = Field.funct7 w ∧ x.rs2.getD (Field.rs2Bits w) = Field.rs2Bits w ∧
    x.fmt.getD (Field.fmt w) = Field.fmt w ∧ x.word.getD w = w := by
  simp only [Selector.fits, Bool.and_eq_true, all_beq_iff, beq_iff_eq, and_assoc]

/-- The parts of a concatenation read back. -/
theorem extract_append {a b c d e : Nat} (x : BitVec a) (y : BitVec b) (z : BitVec c) (u : BitVec d)
    (v : BitVec e) :
    (x ++ y ++ z ++ u ++ v).extractLsb' (b + c + d + e) a = x ∧
    (x ++ y ++ z ++ u ++ v).extractLsb' (c + d + e) b = y ∧
    (x ++ y ++ z ++ u ++ v).extractLsb' (d + e) c = z ∧
    (x ++ y ++ z ++ u ++ v).extractLsb' e d = u := by
  refine ⟨?_, ?_, ?_, ?_⟩ <;>
    simp [BitVec.extractLsb'_append_eq_of_le, BitVec.extractLsb'_append_eq_right]

/-- Where the offset bits of an SB word stand (R95). -/
theorem immSB13_bits (w : Word) :
    (Field.immSB13 w).extractLsb' 12 1 = w.extractLsb' 31 1 ∧
    (Field.immSB13 w).extractLsb' 11 1 = w.extractLsb' 7 1 ∧
    (Field.immSB13 w).extractLsb' 5 6 = w.extractLsb' 25 6 ∧
    (Field.immSB13 w).extractLsb' 1 4 = w.extractLsb' 8 4 :=
  extract_append ..

/-- Where the offset bits of a UJ word stand (R97). -/
theorem immUJ21_bits (w : Word) :
    (Field.immUJ21 w).extractLsb' 20 1 = w.extractLsb' 31 1 ∧
    (Field.immUJ21 w).extractLsb' 12 8 = w.extractLsb' 12 8 ∧
    (Field.immUJ21 w).extractLsb' 11 1 = w.extractLsb' 20 1 ∧
    (Field.immUJ21 w).extractLsb' 1 10 = w.extractLsb' 21 10 :=
  extract_append ..

theorem evenOffset13_immSB13 (w : Word) : evenOffset13 (Field.immSB13 w) = true :=
  beq_iff_eq.2 BitVec.extractLsb'_append_eq_right

theorem evenOffset21_immUJ21 (w : Word) : evenOffset21 (Field.immUJ21 w) = true :=
  beq_iff_eq.2 BitVec.extractLsb'_append_eq_right

theorem encR_fields (w : Word) : encR (Field.funct7 w) (Field.rs2 w) (Field.rs1 w) (Field.funct3 w)
    (Field.rd w) (Field.opcode w) = w := by
  have ha : (Field.rs1 w).val = (w.extractLsb' 15 5).toNat := rfl
  have hb : (Field.rs2 w).val = (w.extractLsb' 20 5).toNat := rfl
  have hd : (Field.rd w).val = (w.extractLsb' 7 5).toNat := rfl
  have := w.isLt
  apply BitVec.eq_of_toNat_eq
  rw [toNat_encR, ha, hb, hd, Field.funct7, Field.funct3, Field.opcode]
  simp only [toNat_field]
  omega

theorem encU_fields (w : Word) : encU (Field.immU20 w) (Field.rd w) (Field.opcode w) = w := by
  have hd : (Field.rd w).val = (w.extractLsb' 7 5).toNat := rfl
  have := w.isLt
  apply BitVec.eq_of_toNat_eq
  rw [toNat_encU, hd, Field.immU20, Field.opcode]
  simp only [toNat_field]
  omega

/-! A word that fits a selector is its fields put together, in any format; a field the selector fixes
may be written as the fixed value, the form a row's instruction is encoded in. -/

section
variable {x : Selector} {w : Word} (h : x.fits w = true)
include h

theorem encR_of_fits : encR (x.funct7.getD (Field.funct7 w)) (x.rs2.getD (Field.rs2Bits w)).toFin
    (Field.rs1 w) (x.funct3.getD (Field.funct3 w)) (Field.rd w) x.opcode = w := by
  obtain ⟨ho, h3, h7, hr, -⟩ := fits_iff.1 h
  rw [h3, h7, hr, ← ho]
  exact encR_fields w

theorem encR4_of_fits : encR4 (Field.rs3 w) (x.fmt.getD (Field.fmt w)) (Field.rs2 w) (Field.rs1 w)
    (x.funct3.getD (Field.funct3 w)) (Field.rd w) x.opcode = w := by
  obtain ⟨ho, h3, -, -, hf, -⟩ := fits_iff.1 h
  have h7 : regBits (Field.rs3 w) ++ Field.fmt w = Field.funct7 w :=
    BitVec.extractLsb'_append_extractLsb'_eq_extractLsb' rfl
  rw [h3, hf, ← ho, encR4_eq_encR, h7, encR_fields]

theorem encShift_of_fits : encShift (x.funct7.getD (Field.funct7 w)) (x.rs2.getD (Field.shamt w))
    (Field.rs1 w) (x.funct3.getD (Field.funct3 w)) (Field.rd w) x.opcode = w :=
  encR_of_fits h

theorem encI_of_fits : encI (Field.immI12 w) (Field.rs1 w) (x.funct3.getD (Field.funct3 w))
    (Field.rd w) x.opcode = w := by
  obtain ⟨ho, h3, -⟩ := fits_iff.1 h
  rw [h3, ← ho, encI_fields]

theorem encS_of_fits : encS (Field.immS12 w) (Field.rs2 w) (Field.rs1 w)
    (x.funct3.getD (Field.funct3 w)) x.opcode = w := by
  obtain ⟨ho, h3, -⟩ := fits_iff.1 h
  have h7 : (Field.immS12 w).extractLsb' 5 7 = Field.funct7 w := BitVec.extractLsb'_append_eq_left
  have hd : (Field.immS12 w).extractLsb' 0 5 = w.extractLsb' 7 5 := BitVec.extractLsb'_append_eq_right
  rw [h3, ← ho, encS_eq_encR, h7, hd]
  exact encR_fields w

theorem encSB_of_fits : encSB (Field.immSB13 w) (Field.rs2 w) (Field.rs1 w)
    (x.funct3.getD (Field.funct3 w)) x.opcode = w := by
  obtain ⟨ho, h3, -⟩ := fits_iff.1 h
  obtain ⟨h12, h11, h5, h1⟩ := immSB13_bits w
  have h7 : w.extractLsb' 31 1 ++ w.extractLsb' 25 6 = Field.funct7 w :=
    BitVec.extractLsb'_append_extractLsb'_eq_extractLsb' rfl
  have hd : w.extractLsb' 8 4 ++ w.extractLsb' 7 1 = w.extractLsb' 7 5 :=
    BitVec.extractLsb'_append_extractLsb'_eq_extractLsb' rfl
  rw [h3, ← ho, encSB_eq_encR, h12, h11, h5, h1, h7, hd]
  exact encR_fields w

theorem encU_of_fits : encU (Field.immU20 w) (Field.rd w) x.opcode = w := by
  rw [← (fits_iff.1 h).1, encU_fields]

theorem encUJ_of_fits : encUJ (Field.immUJ21 w) (Field.rd w) x.opcode = w := by
  obtain ⟨h20, h12, h11, h1⟩ := immUJ21_bits w
  have ha : w.extractLsb' 31 1 ++ w.extractLsb' 21 10 = w.extractLsb' 21 11 :=
    BitVec.extractLsb'_append_extractLsb'_eq_extractLsb' rfl
  have hb : w.extractLsb' 21 11 ++ w.extractLsb' 20 1 = w.extractLsb' 20 12 :=
    BitVec.extractLsb'_append_extractLsb'_eq_extractLsb' rfl
  have hu : w.extractLsb' 20 12 ++ w.extractLsb' 12 8 = Field.immU20 w :=
    BitVec.extractLsb'_append_extractLsb'_eq_extractLsb' rfl
  rw [encUJ_eq_encU, h20, h12, h11, h1, ha, hb, hu, encU_of_fits h]

theorem word_of_fits : x.word.getD w = w := by
  obtain ⟨-, -, -, -, -, hw⟩ := fits_iff.1 h
  exact hw

end

/-- What a row of the table reads from a word it fits has that word; row by row in the table's order,
by the format of the row's instruction. -/
theorem encode_build {w : Word} :
    ∀ r ∈ opcodeRows, r.sel.fits w = true → encode (r.build w) = w := by
  simp only [opcodeRows, rowsUpper, rowsOpImm, rowsOp, rowsMulDiv, rowsLoad, rowsStore, rowsControl,
    rowsSystem, rowsFloatMem, rowsFloatS, rowsFusedS, rowsFloatD, rowsFusedD, List.forall_mem_append,
    List.forall_mem_cons, List.not_mem_nil, false_imp_iff, implies_true, and_true]
  and_intros
  iterate 2 exact encU_of_fits
  iterate 6 exact encI_of_fits
  iterate 3 exact encShift_of_fits
  iterate 18 exact encR_of_fits
  iterate 5 exact encI_of_fits
  iterate 3 exact encS_of_fits
  iterate 6 exact encSB_of_fits
  · exact encUJ_of_fits
  · exact encI_of_fits
  iterate 2 exact word_of_fits
  · exact encR_of_fits
  · exact encI_of_fits
  · exact encS_of_fits
  · exact encI_of_fits
  · exact encS_of_fits
  iterate 19 exact encR_of_fits
  iterate 4 exact encR4_of_fits
  iterate 20 exact encR_of_fits
  iterate 4 exact encR4_of_fits

/-- What a row reads is encodable: the offsets that are read are even, and nothing else is checked. -/
theorem encodable_build {w : Word} (p : Params) : ∀ r ∈ opcodeRows, (r.build w).encodable p = true := by
  have h13 : (evenOffset13 (Field.immSB13 w) && true) = true := by rw [evenOffset13_immSB13]; rfl
  have h21 : (evenOffset21 (Field.immUJ21 w) && true) = true := by rw [evenOffset21_immUJ21]; rfl
  simp only [opcodeRows, rowsUpper, rowsOpImm, rowsOp, rowsMulDiv, rowsLoad, rowsStore, rowsControl,
    rowsSystem, rowsFloatMem, rowsFloatS, rowsFusedS, rowsFloatD, rowsFusedD, List.forall_mem_append,
    List.forall_mem_cons, List.not_mem_nil, false_imp_iff, implies_true, and_true]
  and_intros
  iterate 37 rfl
  iterate 6 exact h13
  · exact h21
  all_goals rfl

/-- Settles O6: a decoded instruction was read by a row the word fits, or is the word itself. -/
theorem encodeOfDecode : Obligations.EncodeOfDecode := by
  unfold Obligations.EncodeOfDecode
  intro p w i h
  obtain ⟨h32, ⟨r, hr, hf, rfl⟩ | ⟨hn, hs, rfl⟩⟩ := decode_some h
  · exact ⟨encode_build r hr hf, encodable_build p r hr, h32⟩
  · exact ⟨rfl, encodable_bitmanipGroup.2 ⟨h32, hn, hs⟩, h32⟩

/-! ### Words that fit no row (R125) -/

theorem rowOf_eq_none_iff {w : Word} : rowOf w = none ↔ ∀ r ∈ opcodeRows, ¬r.sel.fits w = true :=
  List.find?_eq_none

/-- Does every row of an opcode fix a field to a value outside the set given for it. -/
def noRow (op : BitVec 7) (f3 : BitVec 3 → Bool := fun _ => true) (f7 : BitVec 7 → Bool := fun _ => true)
    (fm : BitVec 2 → Bool := fun _ => true) : Bool :=
  opcodeRows.all fun r => r.sel.opcode != op ||
    r.sel.funct3.any (!f3 ·) || r.sel.funct7.any (!f7 ·) || r.sel.fmt.any (!fm ·)

theorem any_not_eq_false_of_getD {α : Type} {o : Option α} {P : α → Bool} {a : α} (ho : o.getD a = a)
    (h : P a = true) : o.any (!P ·) = false := by
  cases o with
  | none => rfl
  | some v => obtain rfl : v = a := ho; simp [h]

/-- A word whose fields lie in the sets fits no row. -/
theorem rowOf_none_of_noRow {w : Word} {op : BitVec 7} {f3 : BitVec 3 → Bool} {f7 : BitVec 7 → Bool}
    {fm : BitVec 2 → Bool} (h : noRow op f3 f7 fm = true) (ho : Field.opcode w = op)
    (h3 : f3 (Field.funct3 w) = true) (h7 : f7 (Field.funct7 w) = true) (hm : fm (Field.fmt w) = true) :
    rowOf w = none := by
  refine rowOf_eq_none_iff.2 fun r hr hf => ?_
  obtain ⟨g, g3, g7, -, gm, -⟩ := fits_iff.1 hf
  have := List.all_eq_true.1 h r hr
  simp [any_not_eq_false_of_getD g3 h3, any_not_eq_false_of_getD g7 h7,
    any_not_eq_false_of_getD gm hm, ← g, ho] at this

/-- `fmt` is the low part of `funct7`, which is what the rows of OP-FP fix. -/
theorem fmt_eq_funct7 (w : Word) : Field.fmt w = (Field.funct7 w).extractLsb' 0 2 := by
  apply BitVec.eq_of_toNat_eq
  rw [Field.fmt, Field.funct7]
  simp only [toNat_field]
  omega

/-- The rows of SYSTEM fix the whole word. -/
theorem rowOf_none_of_system {w : Word} (ho : Field.opcode w = 0x73#7) (h1 : w ≠ 0x00000073#32)
    (h2 : w ≠ 0x00100073#32) : rowOf w = none := by
  refine rowOf_eq_none_iff.2 fun r hr hf => ?_
  obtain ⟨g, -, -, -, -, gw⟩ := fits_iff.1 hf
  have t : (opcodeRows.all fun r => r.sel.opcode != 0x73#7 || r.sel.word == some 0x00000073#32 ||
      r.sel.word == some 0x00100073#32) = true := by decide +kernel
  have := List.all_eq_true.1 t r hr
  simp only [← g, ho, bne_self_eq_false, Bool.false_or, Bool.or_eq_true, beq_iff_eq] at this
  rcases this with e | e <;> rw [e] at gw
  · exact h1 gw.symm
  · exact h2 gw.symm

/-! ### The combinations of OP-FP (R206, R243 to R262) -/

theorem filter_opFp : opcodeRows.filter (·.sel.opcode == 0x53#7) = rowsFloatS ++ rowsFloatD := rfl

/-- What an OP-FP row fixes makes the combination an accepted one. -/
theorem opFpAccepted_of_row (f7 : BitVec 7) (b : BitVec 5) (f3 : BitVec 3) :
    ∀ r ∈ rowsFloatS ++ rowsFloatD,
      opFpAccepted (r.sel.funct7.getD f7) (r.sel.rs2.getD b) (r.sel.funct3.getD f3) = true := by
  simp [rowsFloatS, rowsFloatD, opFpAccepted]

theorem opFpAccepted_of_fits {r : Row} {w : Word} (hr : r ∈ opcodeRows) (hf : r.sel.fits w = true)
    (ho : Field.opcode w = 0x53#7) :
    opFpAccepted (Field.funct7 w) (Field.rs2Bits w) (Field.funct3 w) = true := by
  obtain ⟨g, g3, g7, g2, -⟩ := fits_iff.1 hf
  have hm : r ∈ rowsFloatS ++ rowsFloatD := by
    rw [← filter_opFp, List.mem_filter]
    exact ⟨hr, beq_iff_eq.2 (g.symm.trans ho)⟩
  rw [← g3, ← g7, ← g2]
  exact opFpAccepted_of_row _ _ _ r hm

theorem rowOf_ne_none_of_sel {w : Word} {x : Selector} (hx : opcodeRows.any (·.sel == x) = true)
    (hf : x.fits w = true) : rowOf w ≠ none := by
  obtain ⟨r, hr, hx⟩ := List.any_eq_true.1 hx
  rw [rowOf_of_fits hr (eq_of_beq hx ▸ hf)]
  exact Option.some_ne_none r

/-- Every accepted combination of OP-FP is one a row fixes. -/
theorem rowOf_ne_none_of_opFpAccepted {w : Word} (ho : Field.opcode w = 0x53#7)
    (h : opFpAccepted (Field.funct7 w) (Field.rs2Bits w) (Field.funct3 w) = true) :
    rowOf w ≠ none := by
  have fits {a b c} (h3 : a.getD (Field.funct3 w) = Field.funct3 w)
      (h7 : b.getD (Field.funct7 w) = Field.funct7 w) (h2 : c.getD (Field.rs2Bits w) = Field.rs2Bits w) :
      Selector.fits ⟨0x53, a, b, c, none, none⟩ w = true := fits_iff.2 ⟨ho, h3, h7, h2, rfl, rfl⟩
  simp only [opFpAccepted, Bool.or_eq_true, Bool.and_eq_true, decide_eq_true_eq,
    beq_iff_eq, or_assoc] at h
  rcases h with h7 | ⟨h7, h2⟩ | ⟨h7, h2⟩ | ⟨h7, h3⟩ | ⟨h7, h3⟩ | ⟨h7, h2⟩ | ⟨⟨h7, h2⟩, h3⟩ | ⟨⟨h7, h2⟩, h3⟩
  · have t : ∀ v ∈ [0b0000000#7, 0b0000100#7, 0b0001000#7, 0b0001100#7, 0b0000001#7, 0b0000101#7,
        0b0001001#7, 0b0001101#7], opcodeRows.any (·.sel == ⟨0x53, none, some v, none, none, none⟩) = true := by
      decide +kernel
    exact rowOf_ne_none_of_sel (t _ h7) (fits rfl rfl rfl)
  · have t : ∀ v ∈ [0b0101100#7, 0b0101101#7, 0b0100001#7],
        opcodeRows.any (·.sel == ⟨0x53, none, some v, some 0, none, none⟩) = true := by decide +kernel
    exact rowOf_ne_none_of_sel (t _ h7) (fits rfl rfl h2.symm)
  · have t : opcodeRows.any (·.sel == ⟨0x53, none, some 0b0100000, some 1, none, none⟩) = true := by
      decide +kernel
    exact rowOf_ne_none_of_sel t (fits rfl h7.symm h2.symm)
  · have t : ∀ v ∈ [0b0010000#7, 0b0010001#7, 0b1010000#7, 0b1010001#7], ∀ u ∈ [0b000#3, 0b001#3, 0b010#3],
        opcodeRows.any (·.sel == ⟨0x53, some u, some v, none, none, none⟩) = true := by decide +kernel
    exact rowOf_ne_none_of_sel (t _ h7 _ h3) (fits rfl rfl rfl)
  · have t : ∀ v ∈ [0b0010100#7, 0b0010101#7], ∀ u ∈ [0b000#3, 0b001#3],
        opcodeRows.any (·.sel == ⟨0x53, some u, some v, none, none, none⟩) = true := by decide +kernel
    exact rowOf_ne_none_of_sel (t _ h7 _ h3) (fits rfl rfl rfl)
  · have t : ∀ v ∈ [0b1100000#7, 0b1100001#7, 0b1101000#7, 0b1101001#7], ∀ b ∈ [0#5, 1#5],
        opcodeRows.any (·.sel == ⟨0x53, none, some v, some b, none, none⟩) = true := by decide +kernel
    exact rowOf_ne_none_of_sel (t _ h7 _ h2) (fits rfl rfl rfl)
  · have t : ∀ v ∈ [0b1110000#7, 0b1111000#7],
        opcodeRows.any (·.sel == ⟨0x53, some 0b000, some v, some 0, none, none⟩) = true := by decide +kernel
    exact rowOf_ne_none_of_sel (t _ h7) (fits h3.symm rfl h2.symm)
  · have t : opcodeRows.any (·.sel == ⟨0x53, some 0b001, some 0b1110001, some 0, none, none⟩) = true := by
      decide +kernel
    exact rowOf_ne_none_of_sel t (fits h3.symm h7.symm h2.symm)

/-- Settles O7: each listed word misses a field that every row of its opcode fixes; the rows of OP-FP fix
the accepted combinations. -/
theorem unrecognisedWords : Obligations.UnrecognisedWords := by
  unfold Obligations.UnrecognisedWords
  refine ⟨fun w h => ?_, fun w ho => ?_, fun p w h32 => ?_, fun s w hs hf h32 he hr hb => ?_⟩
  · rcases h with ho | ⟨ho, h3⟩ | ⟨ho, h3⟩ | ⟨ho, h3⟩ | ⟨ho, h3⟩ | ⟨ho, h7⟩ | ⟨ho, h7, h3⟩ | ⟨ho, h3, h7⟩ |
      ⟨ho, h3, h7⟩ | ⟨ho, h1, h2⟩ | ⟨ho, h3⟩ | ⟨ho, hm⟩ | ⟨ho, hm⟩ | ⟨ho, h7, h3⟩
    · have h : ∀ op ∈ [0x0B#7, 0x2B#7, 0x5B#7, 0x7B#7, 0x0F#7, 0x1B#7, 0x3B#7, 0x57#7, 0x6B#7, 0x77#7],
          noRow op = true := by decide +kernel
      exact rowOf_none_of_noRow (h _ ho) rfl rfl rfl rfl
    · have h : noRow 0x03 (f3 := (· ∈ [0b011#3, 0b110#3, 0b111#3])) = true := by decide +kernel
      exact rowOf_none_of_noRow h ho (decide_eq_true h3) rfl rfl
    · have h : noRow 0x23 (f3 := (· ∉ [0b000#3, 0b001#3, 0b010#3])) = true := by decide +kernel
      exact rowOf_none_of_noRow h ho (decide_eq_true h3) rfl rfl
    · have h : noRow 0x63 (f3 := (· ∈ [0b010#3, 0b011#3])) = true := by decide +kernel
      exact rowOf_none_of_noRow h ho (decide_eq_true h3) rfl rfl
    · have h : noRow 0x67 (f3 := (· ≠ 0b000#3)) = true := by decide +kernel
      exact rowOf_none_of_noRow h ho (decide_eq_true h3) rfl rfl
    · have h : noRow 0x33 (f7 := (· ∉ [0b0000000#7, 0b0100000#7, 0b0000001#7])) = true := by decide +kernel
      exact rowOf_none_of_noRow h ho rfl (decide_eq_true h7) rfl
    · have h : noRow 0x33 (f7 := (· = 0b0100000#7)) (f3 := (· ∉ [0b000#3, 0b101#3])) = true := by
        decide +kernel
      exact rowOf_none_of_noRow h ho (decide_eq_true h3) (decide_eq_true h7) rfl
    · have h : noRow 0x13 (f3 := (· = 0b001#3)) (f7 := (· ≠ 0b0000000#7)) = true := by decide +kernel
      exact rowOf_none_of_noRow h ho (decide_eq_true h3) (decide_eq_true h7) rfl
    · have h : noRow 0x13 (f3 := (· = 0b101#3)) (f7 := (· ∉ [0b0000000#7, 0b0100000#7])) = true := by
        decide +kernel
      exact rowOf_none_of_noRow h ho (decide_eq_true h3) (decide_eq_true h7) rfl
    · exact rowOf_none_of_system ho h1 h2
    · have h : ∀ op ∈ [0x07#7, 0x27#7], noRow op (f3 := (· ∉ [0b010#3, 0b011#3])) = true := by
        decide +kernel
      exact rowOf_none_of_noRow (h _ ho) rfl (decide_eq_true h3) rfl rfl
    · have h : ∀ op ∈ [0x43#7, 0x47#7, 0x4B#7, 0x4F#7], noRow op (fm := (· ∈ [0b10#2, 0b11#2])) = true := by
        decide +kernel
      exact rowOf_none_of_noRow (h _ ho) rfl rfl rfl (decide_eq_true hm)
    · have h : noRow 0x53 (f7 := fun v => v.extractLsb' 0 2 ∈ [0b10#2, 0b11#2]) = true := by
        decide +kernel
      rw [fmt_eq_funct7] at hm
      exact rowOf_none_of_noRow h ho rfl (decide_eq_true hm) rfl
    · have h : noRow 0x53 (f7 := (· = 0b1110000#7)) (f3 := (· = 0b001#3)) = true := by decide +kernel
      exact rowOf_none_of_noRow h ho (decide_eq_true h3) (decide_eq_true h7) rfl
  · rw [← Bool.not_eq_true]
    refine ⟨fun hn h => rowOf_ne_none_of_opFpAccepted ho h hn, fun h => ?_⟩
    exact rowOf_eq_none_iff.2 fun r hr hf => h (opFpAccepted_of_fits hr hf ho)
  · simp only [decode, h32, if_true]
    cases rowOf w <;> simp
  · rw [step_is32 hs hf h32]
    simp [State.runWord, he, decode_unselected hr hb]

/-! ### Immediates (R93 to R97) -/

/-- The arithmetic shift that moves a word's top field down is the field with its sign extended. -/
theorem sshiftRight_eq_signExtend {n k : Nat} (w : Word) (h : n + k = 32) (hn : 0 < n) :
    w.sshiftRight k = (w.extractLsb' k n).signExtend 32 := by
  have hs : (w.extractLsb' k n).msb = w.msb := by
    simp only [BitVec.msb_eq_getLsbD_last, BitVec.getLsbD_extractLsb']
    simp only [show n - 1 < n by omega, show k + (n - 1) = 32 - 1 by omega, decide_true, Bool.true_and]
  ext i hi
  simp only [BitVec.getElem_sshiftRight, BitVec.getElem_signExtend, BitVec.getElem_extractLsb', hs]
  by_cases hc : k + i < 32
  · rw [dif_pos hc, dif_pos (by omega), BitVec.getLsbD_eq_getElem hc]
  · rw [dif_neg hc, dif_neg (by omega)]

/-- Moved to the top and arithmetically back down, a field has its sign extended. -/
theorem shiftLeft_sshiftRight_eq_signExtend {n k : Nat} (v : BitVec n) (h : n + k = 32) (hn : 0 < n) :
    (v.setWidth 32 <<< k).sshiftRight k = v.signExtend 32 := by
  rw [sshiftRight_eq_signExtend _ h hn]
  congr 1
  ext i hi
  simp only [BitVec.getElem_extractLsb', BitVec.getLsbD_shiftLeft, BitVec.getLsbD_setWidth]
  simp [show k + i < 32 by omega, show i < 32 by omega, BitVec.getLsbD_eq_getElem hi]

/-- A sign-extended high part above a low part is the sign-extended whole. -/
theorem signExtend_shiftLeft_or {m n : Nat} (x : BitVec m) (y : BitVec n) (hm : 0 < m) :
    (x.signExtend 32 <<< n) ||| y.setWidth 32 = (x ++ y).signExtend 32 := by
  ext i hi
  simp only [BitVec.getElem_or, BitVec.getElem_shiftLeft, BitVec.getElem_signExtend,
    BitVec.getElem_append, BitVec.msb_append, BitVec.getElem_setWidth]
  by_cases hc : i < n
  · simp [hc, show i < m + n by omega]
  · have hy := BitVec.getLsbD_of_ge y i (by omega)
    by_cases hx : i < m + n
    · simp [hc, hy, hx, show i - n < m by omega]
    · simp [hc, hy, hx, show ¬i - n < m by omega, hm.ne']

theorem signExtend_bounds {n : Nat} (v : BitVec n) (h : n ≤ 32) :
    -2 ^ (n - 1) ≤ (v.signExtend 32).toInt ∧ (v.signExtend 32).toInt < 2 ^ (n - 1) := by
  rw [BitVec.toInt_signExtend_of_le h]
  exact ⟨BitVec.le_toInt v, BitVec.toInt_lt⟩

theorem signExtend_append_zero_even {n : Nat} (v : BitVec n) (h : n + 1 ≤ 32) :
    ((v ++ 0#1).signExtend 32).toInt % 2 = 0 := by
  rw [BitVec.toInt_signExtend_of_le h, BitVec.toInt_append_zero]
  omega

theorem immI_eq (w : Word) : immI w = (Field.immI12 w).signExtend 32 :=
  sshiftRight_eq_signExtend w rfl (by decide)

theorem immS_eq (w : Word) : immS w = (Field.immS12 w).signExtend 32 := by
  rw [immS, sshiftRight_eq_signExtend (n := 7) w rfl (by decide)]
  exact signExtend_shiftLeft_or _ _ (by decide)

theorem immSB_eq (w : Word) : immSB w = (Field.immSB13 w).signExtend 32 :=
  shiftLeft_sshiftRight_eq_signExtend _ rfl (by decide)

theorem immUJ_eq (w : Word) : immUJ w = (Field.immUJ21 w).signExtend 32 :=
  shiftLeft_sshiftRight_eq_signExtend _ rfl (by decide)

/-- `imm_U` is the word without its low 12 bits, which the shift left leaves clear. -/
theorem immU_shiftLeft (w : Word) : immU w <<< 12 = w &&& 0xFFFFF000 := by
  have h : immU w = w >>> 12 := by
    apply BitVec.eq_of_toNat_eq
    have := w.isLt
    rw [immU, BitVec.toNat_setWidth, Field.immU20, toNat_field, BitVec.toNat_ushiftRight,
      Nat.shiftRight_eq_div_pow]
    omega
  rw [h, BitVec.shiftLeft_ushiftRight]
  rfl

/-- Settles O2: each shift form is the reassembled field, sign-extended, and so within the field's
bounds. -/
theorem immediatesOfAWord : Obligations.ImmediatesOfAWord := by
  unfold Obligations.ImmediatesOfAWord
  intro w
  have hi := signExtend_bounds (Field.immI12 w) (by decide)
  have hs := signExtend_bounds (Field.immS12 w) (by decide)
  have hb := signExtend_bounds (Field.immSB13 w) (by decide)
  have hj := signExtend_bounds (Field.immUJ21 w) (by decide)
  have eb : ((Field.immSB13 w).signExtend 32).toInt % 2 = 0 := signExtend_append_zero_even _ (by decide)
  have ej : ((Field.immUJ21 w).signExtend 32).toInt % 2 = 0 := signExtend_append_zero_even _ (by decide)
  rw [immI_eq, immS_eq, immSB_eq, immUJ_eq]
  refine ⟨⟨(immI_eq w).symm, rfl, by omega, by omega, rfl⟩,
    ⟨(immS_eq w).symm, rfl, by omega, by omega, rfl⟩,
    ⟨rfl, (immSB_eq w).symm, by omega, by omega, eb, rfl⟩, ⟨rfl, immU_shiftLeft w, rfl⟩,
    ⟨rfl, (immUJ_eq w).symm, by omega, by omega, ej, rfl⟩⟩

/-! ### The immediates of an encoded word (R99) -/

/-- A part of a field is a part of the word. -/
theorem extract_extract (w : Word) {s n i l : Nat} (h : i + l ≤ n) :
    (w.extractLsb' s n).extractLsb' i l = w.extractLsb' (s + i) l := by
  ext k hk
  simp [show i + k < n by omega, Nat.add_assoc]

/-- Where the offset bits stand in an SB word (R99). -/
theorem extract_encSB (off : BitVec 13) (b a : Reg) (f3 : BitVec 3) (op : BitVec 7) :
    (encSB off b a f3 op).extractLsb' 31 1 = off.extractLsb' 12 1 ∧
    (encSB off b a f3 op).extractLsb' 25 6 = off.extractLsb' 5 6 ∧
    (encSB off b a f3 op).extractLsb' 8 4 = off.extractLsb' 1 4 ∧
    (encSB off b a f3 op).extractLsb' 7 1 = off.extractLsb' 11 1 := by
  have h7 : (encSB off b a f3 op).extractLsb' 25 7 = off.extractLsb' 12 1 ++ off.extractLsb' 5 6 := by
    rw [encSB_eq_encR]; exact funct7_encR ..
  obtain ⟨-, -, h8, h1⟩ := extract_append (off.extractLsb' 12 1 ++ off.extractLsb' 5 6 ++ regBits b ++
    regBits a) f3 (off.extractLsb' 1 4) (off.extractLsb' 11 1) op
  refine ⟨?_, ?_, h8, h1⟩
  · rw [← extract_extract (n := 7) (s := 25) (i := 6) _ (by decide), h7]
    exact BitVec.extractLsb'_append_eq_left
  · rw [← extract_extract (n := 7) (s := 25) (i := 0) _ (by decide), h7]
    exact BitVec.extractLsb'_append_eq_right

/-- Where the offset bits stand in a UJ word (R99). -/
theorem extract_encUJ (off : BitVec 21) (d : Reg) (op : BitVec 7) :
    (encUJ off d op).extractLsb' 31 1 = off.extractLsb' 20 1 ∧
    (encUJ off d op).extractLsb' 21 10 = off.extractLsb' 1 10 ∧
    (encUJ off d op).extractLsb' 20 1 = off.extractLsb' 11 1 ∧
    (encUJ off d op).extractLsb' 12 8 = off.extractLsb' 12 8 := by
  obtain ⟨h21, h20, h12, -⟩ := extract_append (off.extractLsb' 20 1 ++ off.extractLsb' 1 10)
    (off.extractLsb' 11 1) (off.extractLsb' 12 8) (regBits d) op
  have h : (encUJ off d op).extractLsb' 21 11 = off.extractLsb' 20 1 ++ off.extractLsb' 1 10 := h21
  refine ⟨?_, ?_, h20, h12⟩
  · rw [← extract_extract (n := 11) (s := 21) (i := 10) _ (by decide), h]
    exact BitVec.extractLsb'_append_eq_left
  · rw [← extract_extract (n := 11) (s := 21) (i := 0) _ (by decide), h]
    exact BitVec.extractLsb'_append_eq_right

/-- An even number has a clear low bit. -/
theorem extract_low_of_even {n : Nat} {v : BitVec n} (h : v.toNat % 2 = 0) :
    (v.extractLsb' 0 1 == 0#1) = true := by
  rw [beq_iff_eq, ← BitVec.toNat_inj, toNat_field]
  simpa using h

/-- Settles O3: the fields of an encoded word, format by format; an immediate is the sign-extended
field. -/
theorem immediatesRoundTrip : Obligations.ImmediatesRoundTrip := by
  unfold Obligations.ImmediatesRoundTrip
  intro imm imm20 o13 o21 rs1 rs2 rd f3 op
  obtain ⟨b31, b25, b8, b7⟩ := extract_encSB o13 rs2 rs1 f3 op
  obtain ⟨j31, j21, j20, j12⟩ := extract_encUJ o21 rd op
  refine ⟨⟨immI12_encI .., ?_, rs1_encI .., funct3_encI .., rd_encI .., opcode_encI ..⟩,
    ⟨funct7_encR .., ?_, ?_, rs2_encS .., rs1_encS .., funct3_encS .., opcode_encS ..⟩,
    ⟨b31, b25, b8, b7, fun h => ?_, rs2_encSB .., rs1_encSB .., funct3_encSB .., opcode_encSB ..⟩,
    ⟨immU20_encU .., ?_, rd_encU .., opcode_encU ..⟩,
    ⟨j31, j21, j20, j12, fun h => ?_, rd_encUJ .., opcode_encUJ ..⟩⟩
  · rw [immI_eq, immI12_encI]
  · exact BitVec.eq_of_toFin_eq (rd_encR ..)
  · rw [immS_eq, immS12_encS]
  · rw [immSB_eq, immSB13_encSB _ _ _ _ _ (extract_low_of_even h)]
  · rw [immU, immU20_encU]
  · rw [immUJ_eq, immUJ21_encUJ _ _ _ (extract_low_of_even h)]

end Sys2Proof

namespace Sys2Proof.Machine

/-! ### Pseudo-instructions (R111) -/

/-- The operands of an I-format word are its fields. -/
theorem encI_inj {imm imm' : BitVec 12} {a a' d d' : Reg} {f3 f3' : BitVec 3} {op op' : BitVec 7}
    (h : encI imm a f3 d op = encI imm' a' f3' d' op') : d = d' ∧ a = a' ∧ imm = imm' := by
  have hd := congrArg Field.rd h
  have ha := congrArg Field.rs1 h
  have hi := congrArg Field.immI12 h
  simpa using And.intro hd (And.intro ha hi)

theorem encode_addi_eq_nop {rd rs1 : Reg} {imm : BitVec 12} :
    encode (.addi rd rs1 imm) = 0x00000013#32 ↔ rd = 0 ∧ rs1 = 0 ∧ imm = 0 := by
  refine ⟨fun h => encI_inj (h.trans (by decide : _ = encode (.addi 0 0 0))), ?_⟩
  rintro ⟨rfl, rfl, rfl⟩
  decide

theorem encode_jalr_eq_ret {rd rs1 : Reg} {imm : BitVec 12} :
    encode (.jalr rd rs1 imm) = 0x00008067#32 ↔ isRet rd rs1 imm = true := by
  simp only [isRet, Bool.and_eq_true, beq_iff_eq, and_assoc]
  refine ⟨fun h => encI_inj (h.trans (by decide : _ = encode (.jalr 0 1 0))), ?_⟩
  rintro ⟨rfl, rfl, rfl⟩
  decide

/-- A recognised pseudo-instruction expands to the instruction it was recognised from. -/
theorem expand_of_pseudoOf {i : Instr} {q : Pseudo} (h : pseudoOf i = some q) : q.expand = i := by
  cases i
  case addi rd rs1 imm =>
    simp only [pseudoOf] at h
    split_ifs at h with h1 h2 h3 <;> cases h
    · obtain ⟨rfl, rfl, rfl⟩ := h1; rfl
    · rw [h2]; rfl
    · rw [h3]; rfl
  case jalr rd rs1 imm =>
    simp only [pseudoOf] at h
    split_ifs at h with h1
    cases h
    simp only [isRet, Bool.and_eq_true, beq_iff_eq] at h1
    obtain ⟨⟨rfl, rfl⟩, rfl⟩ := h1
    rfl
  case jal | fsgnjS | fsgnjnS | fsgnjxS =>
    simp only [pseudoOf] at h
    split_ifs at h with h1
    cases h
    rw [h1]
    rfl
  all_goals cases h

/-- Every expansion is recognised, if not as the same pseudo-instruction (`li` and `mv` of nothing are
`nop`). -/
theorem pseudoOf_expand (q : Pseudo) : ∃ q', pseudoOf q.expand = some q' := by
  cases q
  case nop => exact ⟨.nop, rfl⟩
  case li | mv =>
    simp only [Pseudo.expand, pseudoOf]
    split_ifs <;> exact ⟨_, rfl⟩
  case ret => exact ⟨.ret, rfl⟩
  case j off => exact ⟨.j off, rfl⟩
  case fmvS rd rs => exact ⟨.fmvS rd rs, if_pos rfl⟩
  case fnegS rd rs => exact ⟨.fnegS rd rs, if_pos rfl⟩
  case fabsS rd rs => exact ⟨.fabsS rd rs, if_pos rfl⟩

/-- Settles O58: recognition by the operands, which the two fixed words fix. -/
theorem pseudoInstructionsAreSpellings : Obligations.PseudoInstructionsAreSpellings := by
  unfold Obligations.PseudoInstructionsAreSpellings
  refine ⟨fun _ _ => expand_of_pseudoOf, pseudoOf_expand, fun rd rs1 imm => ?_, fun rd rs1 imm => ?_,
    fun _ _ => rfl, fun _ _ _ => ⟨rfl, rfl, rfl⟩⟩
  · simp only [encode_addi_eq_nop]
    rfl
  · simp only [encode_jalr_eq_ret]
    rfl

/-! ### The step: dispatch, faults, the echo inputs -/

/-- Settles O12: the word passes the length check, because it decodes. -/
theorem stepRunsTheDecodedInstruction : Obligations.StepRunsTheDecodedInstruction := by
  unfold Obligations.StepRunsTheDecodedInstruction
  intro s w i hs he hf hd
  rw [step_is32 hs hf (decode_some hd).1]
  simp [State.runWord, he, hd, State.clearStatus]

/-- A fetch fails for two causes. -/
theorem fetch_error_cases {s : State} {c : FaultCause} (h : s.fetch = .error c) :
    s.fetch = .error .misalignedFetch ∨ s.fetch = .error .fetchOutsideCode := by
  cases ha : s.pcAligned with
  | false => exact .inl (fetch_misaligned ha)
  | true =>
    cases hc : s.fetchInside with
    | false => exact .inr (fetch_outside ha hc)
    | true => cases h.symm.trans (fetch_inside ha hc)

/-- A step that sets the fault flag has one of the three causes and sets nothing else but the status. -/
theorem step_faulted {s t : State} (hs : s.fault = false) (h : step s = .next t) (ht : t.fault = true) :
    (s.fetch = .error .misalignedFetch ∨ s.fetch = .error .fetchOutsideCode ∨
      ∃ w, s.fetch = .ok w ∧ is32 w = false) ∧ t = { s with fault := true, status := 0b00001 } := by
  rcases step_cases h with ⟨hf, -⟩ | ⟨-, c, hc, rfl⟩ | ⟨-, w, hw, h32, rfl⟩ | ⟨-, -, w, -, -, rfl⟩ |
    ⟨-, -, w, i, -, -, -, hx⟩
  · simp [hs] at hf
  · exact ⟨(fetch_error_cases hc).imp_right .inl, rfl⟩
  · exact ⟨.inr (.inr ⟨w, hw, h32⟩), rfl⟩
  · simp [hs] at ht
  · simp [(exec_ran hx).fault, hs] at ht

/-- Settles O9: of the ways a step ends, only a failed fetch and a failed length check set the flag. -/
theorem faultsExactlyForTheThreeCauses : Obligations.FaultsExactlyForTheThreeCauses := by
  unfold Obligations.FaultsExactlyForTheThreeCauses
  refine ⟨fun w => by simp [is32], fun s hs => ⟨⟨?_, ?_⟩, fun t h ht => (step_faulted hs h ht).2⟩⟩
  · rintro ⟨t, h, ht⟩
    exact (step_faulted hs h ht).1
  · rintro (h | h | ⟨w, hw, h32⟩)
    · exact ⟨_, step_fetch_error hs h, rfl⟩
    · exact ⟨_, step_fetch_error hs h, rfl⟩
    · exact ⟨_, step_not_is32 hs hw h32, rfl⟩

/-- The state with other echo inputs. -/
def State.withEcho (s : State) (b : Bool) (c : EchoConfig) : State := { s with echoEn := b, echoCfg := c }

/-- The answer with other echo inputs in its next state. -/
def echoed (b : Bool) (c : EchoConfig) : Result → Result
  | .next t => .next (t.withEcho b c)
  | .fault q => .fault q
  | .refused q => .refused q

/-! Every operation does the same under other echo inputs and keeps them. -/

section
variable (s : State) (b : Bool) (c : EchoConfig)

theorem writeX_withEcho (r : Reg) (v : Word) :
    (s.withEcho b c).writeX r v = (s.writeX r v).withEcho b c := by
  unfold State.writeX; split <;> rfl

theorem writeResult_withEcho (r : Reg) (o : Option Word) :
    (s.withEcho b c).writeResult r o = (s.writeResult r o).withEcho b c := by
  cases o <;> rfl

theorem transfer_withEcho (a : Word) : (s.withEcho b c).transfer a = (s.transfer a).withEcho b c := by
  have h : (s.withEcho b c).params = s.params := rfl
  unfold State.transfer
  rw [h]
  split <;> rfl

theorem branch_withEcho (taken : Bool) (off : BitVec 13) :
    (s.withEcho b c).branch taken off = (s.branch taken off).withEcho b c := by
  cases taken
  · rfl
  · exact transfer_withEcho (s.setStatus .branchTaken) b c _

theorem storeAt_withEcho (q : Place) (bs : List Byte) :
    (s.withEcho b c).storeAt q bs = (s.storeAt q bs).withEcho b c := by
  obtain ⟨k, n⟩ := q
  cases k <;> rfl

theorem accessPlace_withEcho (a : Word) (n : Nat) :
    (s.withEcho b c).accessPlace a n = s.accessPlace a n := rfl

theorem memRead_withEcho (a : Word) (n : Nat) : (s.withEcho b c).memRead a n = s.memRead a n := rfl

theorem hookByte_withEcho (a : Word) (v : Byte) :
    (s.withEcho b c).hookByte a v = (s.hookByte a v).withEcho b c := by
  simp only [State.hookByte, State.memWrite, accessPlace_withEcho]
  cases s.accessPlace a 1 with
  | done q => exact storeAt_withEcho s b c q _
  | unresolved => rfl
  | overrun => rfl

theorem applyHook_withEcho (e : HookEffect) :
    (s.withEcho b c).applyHook e = (s.applyHook e).withEcho b c := by
  simp only [State.applyHook]
  rw [List.foldl_hom (State.withEcho · b c) (g₁ := fun s x => s.pokeX x.1 x.2) fun _ _ => rfl,
    List.foldl_hom (State.withEcho · b c) (g₁ := fun s x => s.writeFD x.1 x.2) fun _ _ => rfl,
    List.foldl_hom (State.withEcho · b c) fun s x => hookByte_withEcho s b c x.1 x.2]

theorem callHook_withEcho (k : HookKind) (w : Word) :
    (s.withEcho b c).callHook k w = (s.callHook k w).withEcho b c := by
  have hh : (s.withEcho b c).hooks = s.hooks := rfl
  have hi : (s.withEcho b c).hookInput w = s.hookInput w := rfl
  rw [State.callHook, State.callHook, hh, hi, applyHook_withEcho]
  split <;> rfl

theorem load_withEcho {n : Nat} {f : State → BitVec (8 * n) → State}
    (hf : ∀ v, f (s.withEcho b c) v = (f s v).withEcho b c) (a : Word) :
    (s.withEcho b c).load a n f = echoed b c (s.load a n f) := by
  simp only [State.load, memRead_withEcho]
  cases s.memRead a n with
  | done v => exact congrArg (fun t : State => Host.Outcome.next t.retire) (hf v)
  | unresolved => rfl
  | overrun => rfl

theorem store_withEcho (a : Word) (n : Nat) (v : BitVec (8 * n)) :
    (s.withEcho b c).store a n v = echoed b c (s.store a n v) := by
  simp only [State.store, State.memWrite, accessPlace_withEcho]
  cases s.accessPlace a n with
  | done q => exact congrArg (fun t : State => Host.Outcome.next t.retire) (storeAt_withEcho s b c q _)
  | unresolved => rfl
  | overrun => rfl

theorem stubOr_withEcho (m : Result) :
    (s.withEcho b c).stubOr (echoed b c m) = echoed b c (s.stubOr m) := by
  cases hf : s.params.fldFsd with
  | stub => rw [stubOr_stub hf, stubOr_stub (s := s.withEcho b c) hf]; rfl
  | move64 => rw [stubOr_move64 hf, stubOr_move64 (s := s.withEcho b c) hf]

/-- An instruction that ends in `retire`. -/
theorem retire_withEcho {u v : State} (h : u = v.withEcho b c) :
    (.next u.retire : Result) = echoed b c (.next v.retire) := by
  rw [h]; rfl

/-- An instruction that ends in `transfer`. -/
theorem jump_withEcho {u v : State} {a : Word} (h : u = v.withEcho b c) :
    (.next (u.transfer a) : Result) = echoed b c (.next (v.transfer a)) := by
  rw [h, transfer_withEcho]; rfl

/-- No instruction reads or changes the echo inputs (R50, R107). -/
theorem exec_withEcho (i : Instr) : exec i (s.withEcho b c) = echoed b c (exec i s) := by
  cases i
  case lb | lh | lw | lbu | lhu =>
    simp only [exec, execLb, execLh, execLw, execLbu, execLhu]
    exact load_withEcho s b c (fun v => writeX_withEcho s b c _ _) _
  case flw =>
    simp only [exec, execFlw]
    exact load_withEcho s b c (fun v => rfl) _
  case sb | sh | sw | fsw => exact store_withEcho s b c _ _ _
  case fld =>
    simp only [exec, execFld]
    rw [load_withEcho s b c (fun v => by rfl)]
    exact stubOr_withEcho s b c _
  case fsd =>
    simp only [exec, execFsd]
    rw [store_withEcho s b c]
    exact stubOr_withEcho s b c _
  case beq | bne | blt | bge | bltu | bgeu => exact congrArg Host.Outcome.next (branch_withEcho s b c _ _)
  case jal rd off => exact jump_withEcho b c (congrArg (State.setStatus · .jal) (writeX_withEcho s b c _ _))
  case jalr rd rs1 imm =>
    refine jump_withEcho b c (v := if isRet rd rs1 imm then _ else _) ?_
    rw [writeX_withEcho]
    split <;> rfl
  case ecall | ebreak | atomicGroup | bitmanipGroup => exact retire_withEcho b c (callHook_withEcho s b c _ _)
  case lui | auipc | addi | slti | sltiu | xori | ori | andi | slli | srli | srai | add | sub | sll | slt |
      sltu | xor | srl | sra | or | and | mul | mulh | mulhsu | mulhu | div | divu | rem | remu | fcvtWS |
      fcvtWuS | fmvXW | feqS | fltS | fleS =>
    exact retire_withEcho b c (writeX_withEcho s b c _ _)
  case faddS | fsubS | fmulS | fdivS | fsqrtS | fmaddS | fmsubS | fnmsubS | fnmaddS =>
    exact retire_withEcho b c (writeResult_withEcho s b c _ _)
  all_goals rfl

theorem runWord_withEcho (w : Word) : (s.withEcho b c).runWord w = echoed b c (s.runWord w) := by
  have he : (s.withEcho b c).execEn = s.execEn := rfl
  have hp : (s.withEcho b c).params = s.params := rfl
  rw [State.runWord, State.runWord, he, hp]
  cases s.execEn with
  | false => rfl
  | true =>
    cases decode s.params w with
    | some i => exact exec_withEcho s b c i
    | none => rfl

theorem step_withEcho : step (s.withEcho b c) = echoed b c (step s) := by
  cases hs : s.fault with
  | true => rw [step_stuck hs, step_stuck (s := s.withEcho b c) hs]; rfl
  | false =>
    cases hf : s.fetch with
    | error e => rw [step_fetch_error hs hf, step_fetch_error (s := s.withEcho b c) hs hf]; rfl
    | ok w =>
      cases hw : is32 w with
      | false => rw [step_not_is32 hs hf hw, step_not_is32 (s := s.withEcho b c) hs hf hw]; rfl
      | true =>
        rw [step_is32 hs hf hw, step_is32 (s := s.withEcho b c) hs hf hw]
        exact runWord_withEcho s.clearStatus b c w

end

/-- Settles O13: with `exec_en` = 0 the step is `pc + 4` or the fault path, and the echo inputs pass
through every step. -/
theorem echoOnlyStepAdvancesPc : Obligations.EchoOnlyStepAdvancesPc := by
  unfold Obligations.EchoOnlyStepAdvancesPc
  refine ⟨fun s w hs he hf => ⟨fun hw => ?_, fun hw => step_not_is32 hs hf hw⟩, fun s b c => ?_⟩
  · rw [step_is32 hs hf hw]
    simp [State.runWord, he, State.clearStatus, State.advancePc]
  · have h := step_withEcho s b c
    simp only [State.withEcho] at h
    rw [h]
    cases step s <;> rfl

end Sys2Proof.Machine
end

section
/-!
SUPPORT and PROOFS. Integer instructions (40_integer.md): what an instruction that writes one integer
register does, the 0/1 value of a comparison, and the statements about upper immediates, OP-IMM and OP.
-/

namespace Sys2Proof.Machine

/-- `retire` after a part of an instruction that moves neither `pc` nor the counter is the advance. -/
theorem advanced_retire {s u : State} (k : s.Kept u) : s.Advanced u.retire :=
  ⟨by simp [k.pc], by simp [k.counter], k.status, k.fault, k.frame.trans (sameFrame_retire u)⟩

/-- A guarded register write and the advance change nothing else (R31, R131). -/
theorem wroteX_writeX_retire (s : State) (rd : Reg) (v : Word) : s.WroteX (s.writeX rd v).retire rd v where
  advanced := advanced_retire (kept_writeX s rd v)
  value := by
    rw [readX_retire]
    split
    next h => rw [h, writeX_zero]
    next h => exact readX_writeX_same s v h
  others := fun r h => readX_writeX_other s v h
  floats := writeX_f s rd v
  bytes := fun p => by rw [readPlace_retire, readPlace_writeX]

/-- An instruction whose meaning is one guarded register write and the advance completes. -/
theorem exec_wroteX {s : State} {i : Instr} {rd : Reg} {v : Word}
    (h : exec i s = .next (s.writeX rd v).retire) : ∃ t, exec i s = .next t ∧ s.WroteX t rd v :=
  ⟨_, h, wroteX_writeX_retire s rd v⟩

theorem boolWord_ltSigned (a b : Word) : boolWord (ltSigned a b) = if a.toInt < b.toInt then 1 else 0 := by
  simp [boolWord, ltSigned]

theorem boolWord_ltUnsigned (a b : Word) :
    boolWord (ltUnsigned a b) = if a.toNat < b.toNat then 1 else 0 := by
  simp [boolWord, ltUnsigned]

/-- Settles O25: each word is its format's, and each meaning one guarded register write. -/
theorem upperImmediates : Obligations.UpperImmediates := by
  unfold Obligations.UpperImmediates
  intro s rd imm
  exact ⟨rfl, exec_wroteX rfl, rfl, exec_wroteX rfl⟩

/-- Settles O26: each meaning is one guarded register write, that of SLTI and SLTIU of a comparison's 0/1
value; the other shift words are among the unrecognised words of O7. -/
theorem opImmediate : Obligations.OpImmediate := by
  unfold Obligations.OpImmediate
  refine ⟨fun s rd rs1 imm => ?_, fun s rd rs1 shamt => ?_, fun w ho h => unrecognisedWords.1 w ?_⟩
  · rw [← boolWord_ltSigned, ← boolWord_ltUnsigned]
    exact ⟨rfl, exec_wroteX rfl, rfl, exec_wroteX rfl, rfl, exec_wroteX rfl,
      rfl, exec_wroteX rfl, rfl, exec_wroteX rfl, rfl, exec_wroteX rfl⟩
  · exact ⟨rfl, exec_wroteX rfl, rfl, exec_wroteX rfl, rfl, exec_wroteX rfl⟩
  · rcases h with h | h <;> simp [ho, h]

/-- Settles O27: each meaning is one guarded register write of a value of both sources, read first; that
of SLT and SLTU is a comparison's 0/1 value. -/
theorem opRegisterArithmetic : Obligations.OpRegisterArithmetic := by
  unfold Obligations.OpRegisterArithmetic
  intro s rd rs1 rs2
  rw [← boolWord_ltSigned, ← boolWord_ltUnsigned]
  exact ⟨rfl, exec_wroteX rfl, rfl, exec_wroteX rfl, rfl, exec_wroteX rfl, rfl, exec_wroteX rfl,
    rfl, exec_wroteX rfl, rfl, exec_wroteX rfl, rfl, exec_wroteX rfl, rfl, exec_wroteX rfl,
    rfl, exec_wroteX rfl, rfl, exec_wroteX rfl⟩

end Sys2Proof.Machine
end

section
/-!
SUPPORT and PROOFS. Multiply and divide (41_muldiv.md): the functions `exec` uses, as the library's
operations on words and as products, quotients and remainders over the integers, and the two statements
about them.
-/

namespace Sys2Proof.Machine

/-- The high word of an integer over its low word is its 64-bit word. -/
theorem highWord_append_ofInt (p : Int) : highWord p ++ BitVec.ofInt 32 p = BitVec.ofInt 64 p := by
  have hlow : BitVec.ofInt 32 p = (BitVec.ofInt 64 p).extractLsb' 0 32 := by
    apply BitVec.eq_of_toNat_eq
    simp only [BitVec.extractLsb'_toNat, BitVec.toNat_ofInt]
    omega
  rw [hlow, highWord, BitVec.extractLsb'_append_extractLsb'_eq_extractLsb' (by rfl)]
  exact BitVec.extractLsb'_eq_self

/-- MUL's word serves every reading of the operands as integers, signed or unsigned (R161). -/
theorem highWord_append_mulLow {a b : Word} {x y : Int} (hx : BitVec.ofInt 32 x = a)
    (hy : BitVec.ofInt 32 y = b) : highWord (x * y) ++ mulLow a b = BitVec.ofInt 64 (x * y) := by
  rw [← highWord_append_ofInt, BitVec.ofInt_mul, hx, hy, mulLow]

theorem mulLow_eq_ofInt (a b : Word) : mulLow a b = BitVec.ofInt 32 (a.toInt * b.toInt) := by
  simp [mulLow, BitVec.ofInt_mul]

theorem ofInt_toNat (a : Word) : BitVec.ofInt 32 a.toNat = a := by
  simp

/-- The product words of MULH and MUL (R162). -/
theorem mulSigned_exact (a b : Word) :
    (highWord (a.toInt * b.toInt) ++ mulLow a b).toInt = a.toInt * b.toInt := by
  have hlo := BitVec.le_toInt_mul_toInt (x := a) (y := b)
  have hhi := BitVec.toInt_mul_toInt_le (x := a) (y := b)
  rw [highWord_append_mulLow BitVec.ofInt_toInt BitVec.ofInt_toInt]
  exact BitVec.toInt_ofInt_eq_self (by decide) (by omega) (by omega)

/-- The product words of MULHSU and MUL (R163). -/
theorem mulSignedUnsigned_exact (a b : Word) :
    (highWord (a.toInt * b.toNat) ++ mulLow a b).toInt = a.toInt * b.toNat := by
  have hb : (b.toNat : Int) < 2 ^ 32 := by exact_mod_cast b.isLt
  have hlo := mul_le_mul_of_nonneg_right a.le_toInt b.toNat.cast_nonneg
  have hhi := mul_le_mul_of_nonneg_right (BitVec.toInt_le (x := a)) b.toNat.cast_nonneg
  rw [highWord_append_mulLow BitVec.ofInt_toInt (ofInt_toNat b)]
  exact BitVec.toInt_ofInt_eq_self (by decide) (by omega) (by omega)

/-- The product words of MULHU and MUL (R164). -/
theorem mulUnsigned_exact (a b : Word) :
    (highWord (a.toNat * b.toNat) ++ mulLow a b).toNat = a.toNat * b.toNat := by
  have hlt : a.toNat * b.toNat < 2 ^ 32 * 2 ^ 32 := Nat.mul_lt_mul'' a.isLt b.isLt
  rw [highWord_append_mulLow (ofInt_toNat a) (ofInt_toNat b), ← Nat.cast_mul, BitVec.ofInt_natCast]
  exact (BitVec.toNat_ofNat _ _).trans (Nat.mod_eq_of_lt hlt)

/-- The model's signed quotient is the library's, whose value at a zero divisor is 0 too. -/
theorem divSigned_eq_sdiv (a b : Word) : divSigned a b = a.sdiv b := by
  apply BitVec.eq_of_toInt_eq
  rw [BitVec.toInt_sdiv, divSigned]
  split
  next hb => simp [hb]
  next =>
    split
    next h =>
      obtain ⟨ha, hb⟩ := h
      rw [ha, hb]; decide
    next => exact BitVec.toInt_ofInt _

theorem remSigned_eq_srem {b : Word} (hb : b ≠ 0) (a : Word) : remSigned a b = a.srem b := by
  rw [← BitVec.ofInt_toInt (x := a.srem b), BitVec.toInt_srem, remSigned, if_neg hb]
  split
  next h =>
    obtain ⟨ha, hb⟩ := h
    rw [ha, hb]; decide
  next => rw [Int.tmod_def]

/-- The model's unsigned quotient is the library's, whose value at a zero divisor is 0 too. -/
theorem divUnsigned_eq_udiv (a b : Word) : divUnsigned a b = a / b := by
  rw [divUnsigned, ← BitVec.toNat_udiv, BitVec.ofNat_toNat, BitVec.setWidth_eq]
  split
  next hb => rw [hb]; exact BitVec.udiv_zero.symm
  next => rfl

theorem remUnsigned_eq_umod {b : Word} (hb : b ≠ 0) (a : Word) : remUnsigned a b = a % b := by
  rw [remUnsigned, if_neg hb, ← BitVec.toNat_umod, BitVec.ofNat_toNat, BitVec.setWidth_eq]

/-- The signed quotient, away from the overflow, is truncated toward zero (R165). -/
theorem divSigned_toInt {a b : Word} (h : ¬(a.toInt = -2 ^ 31 ∧ b.toInt = -1)) :
    (divSigned a b).toInt = a.toInt.tdiv b.toInt := by
  rw [divSigned_eq_sdiv]
  refine BitVec.toInt_sdiv_of_ne_or_ne a b (not_and_or.mp fun ⟨ha, hb⟩ => h ?_)
  rw [ha, hb]
  decide

theorem remSigned_toInt {b : Word} (hb : b ≠ 0) (a : Word) :
    (remSigned a b).toInt = a.toInt.tmod b.toInt := by
  rw [remSigned_eq_srem hb, BitVec.toInt_srem]

/-- Truncated division makes the remainder smaller than the divisor, and gives it the dividend's sign. -/
theorem tmod_bounds (m : Int) {k : Int} (hk : k ≠ 0) :
    (m.tmod k).natAbs < k.natAbs ∧ (0 ≤ m → 0 ≤ m.tmod k) ∧ (m ≤ 0 → m.tmod k ≤ 0) := by
  refine ⟨?_, Int.tmod_nonneg k, fun hm => ?_⟩
  · rw [Int.natAbs_tmod]
    exact Nat.mod_lt _ (Int.natAbs_pos.mpr hk)
  · have hneg := Int.tmod_nonneg k (Int.neg_nonneg_of_nonpos hm)
    rw [Int.neg_tmod] at hneg
    exact Int.nonpos_of_neg_nonneg hneg

theorem toInt_eq_zero_iff (b : Word) : b.toInt = 0 ↔ b = 0 :=
  BitVec.toInt_inj (y := 0)

theorem toNat_eq_zero_iff (b : Word) : b.toNat = 0 ↔ b = 0 :=
  BitVec.toNat_inj (y := 0)

/-- The division law of the signed forms (R169). -/
theorem signedDivision_law {a b : Word} (hb : b ≠ 0) (h : ¬(a.toInt = -2 ^ 31 ∧ b.toInt = -1)) :
    a.toInt = (divSigned a b).toInt * b.toInt + (remSigned a b).toInt ∧
    (remSigned a b).toInt.natAbs < b.toInt.natAbs ∧
    (0 ≤ a.toInt → 0 ≤ (remSigned a b).toInt) ∧ (a.toInt ≤ 0 → (remSigned a b).toInt ≤ 0) := by
  rw [divSigned_toInt h, remSigned_toInt hb]
  exact ⟨(Int.tdiv_mul_add_tmod _ _).symm, tmod_bounds _ (mt (toInt_eq_zero_iff b).mp hb)⟩

/-- The division law of the unsigned forms (R169). -/
theorem unsignedDivision_law {b : Word} (hb : b ≠ 0) (a : Word) :
    a.toNat = (divUnsigned a b).toNat * b.toNat + (remUnsigned a b).toNat ∧
    (remUnsigned a b).toNat < b.toNat := by
  rw [divUnsigned_eq_udiv, remUnsigned_eq_umod hb, BitVec.toNat_udiv, BitVec.toNat_umod]
  exact ⟨(Nat.div_add_mod' _ _).symm, Nat.mod_lt _ (Nat.pos_of_ne_zero (mt (toNat_eq_zero_iff b).mp hb))⟩

/-- Settles O29: the two product words are the 64-bit word of a product that fits it, and the quotients
and remainders are those of truncated and of natural division. -/
theorem multiplicationAndDivisionLaws : Obligations.MultiplicationAndDivisionLaws := by
  unfold Obligations.MultiplicationAndDivisionLaws
  intro a b
  exact ⟨mulSigned_exact a b, mulSignedUnsigned_exact a b, mulUnsigned_exact a b,
    signedDivision_law, fun hb => unsignedDivision_law hb a,
    ⟨rfl, rfl, rfl, rfl⟩, by decide, by decide⟩

/-- DIV's value by the signed operands alone (R165). -/
theorem divSigned_eq_ofInt (a b : Word) : divSigned a b = BitVec.ofInt 32
    (if b.toInt = 0 then 0 else if a.toInt = -2 ^ 31 ∧ b.toInt = -1 then -2 ^ 31
      else a.toInt.tdiv b.toInt) := by
  simp only [toInt_eq_zero_iff, apply_ite (BitVec.ofInt 32)]
  rfl

/-- REM's value by the signed operands alone (R167). -/
theorem remSigned_eq_ofInt (a b : Word) : remSigned a b = BitVec.ofInt 32
    (if b.toInt = 0 then 0 else if a.toInt = -2 ^ 31 ∧ b.toInt = -1 then 0
      else a.toInt - b.toInt * a.toInt.tdiv b.toInt) := by
  simp only [toInt_eq_zero_iff, apply_ite (BitVec.ofInt 32)]
  rfl

theorem divUnsigned_eq_ofNat (a b : Word) :
    divUnsigned a b = if b.toNat = 0 then 0 else BitVec.ofNat 32 (a.toNat / b.toNat) := by
  simp only [toNat_eq_zero_iff, divUnsigned]

theorem remUnsigned_eq_ofNat (a b : Word) :
    remUnsigned a b = if b.toNat = 0 then 0 else BitVec.ofNat 32 (a.toNat % b.toNat) := by
  simp only [toNat_eq_zero_iff, remUnsigned]

theorem highWord_natCast (n : Nat) : highWord n = (BitVec.ofNat 64 n).extractLsb' 32 32 := by
  rw [highWord, BitVec.ofInt_natCast]

/-- Settles O28: each meaning is one guarded register write of a value of both sources, read first. -/
theorem multiplyAndDivide : Obligations.MultiplyAndDivide := by
  unfold Obligations.MultiplyAndDivide
  intro s rd rs1 rs2
  rw [← mulLow_eq_ofInt, ← highWord_natCast, Nat.cast_mul, ← divSigned_eq_ofInt, ← remSigned_eq_ofInt,
    ← divUnsigned_eq_ofNat, ← remUnsigned_eq_ofNat]
  exact ⟨rfl, exec_wroteX rfl, rfl, exec_wroteX rfl, rfl, exec_wroteX rfl, rfl, exec_wroteX rfl,
    rfl, exec_wroteX rfl, rfl, exec_wroteX rfl, rfl, exec_wroteX rfl, rfl, exec_wroteX rfl⟩

end Sys2Proof.Machine
end

section
/-!
SUPPORT and PROOFS. Loads and stores (42_loadstore.md): what a single-view write and a store of bytes
followed by the advance do, and the statements about the loads, the stores, FLW and FSW.
-/

namespace Sys2Proof.Machine

/-- A single-view write and the advance change nothing else (R35, R36). -/
theorem wroteFS_writeFS_retire (s : State) (rd : Reg) (v : Word) : s.WroteFS (s.writeFS rd v).retire rd v where
  advanced := advanced_retire (kept_writeFS s rd v)
  low := by rw [readFS_retire, readFS_writeFS_same]
  high := by rw [readFD_retire, high_writeFS_same]
  others := fun r h => readFD_writeFS_other s v h
  ints := writeFS_x s rd v
  bytes := fun p => by rw [readPlace_retire, readPlace_writeFS]

/-- The bytes of an access stored at its place, and the advance, change nothing else (R67). -/
theorem storedAt_storeAt_retire {s : State} (hs : s.storesOk = true) {a : Word} {n : Nat} {q : Place}
    (hq : s.accessPlace a n = .done q) {bs : List Byte} (hl : bs.length = n) :
    s.StoredAt (s.storeAt q bs).retire q bs where
  advanced := advanced_retire (kept_storeAt hq hl)
  stored := fun i hi => by rw [readPlace_retire, readPlace_storeAt_at (bank_wf hs _) bs i hi]
  others := fun p hp => by rw [readPlace_retire, sameBytesBut_storeAt s q bs p hp]
  ints := storeAt_x s q bs
  floats := storeAt_f s q bs

section
variable {s : State} {i : Instr} {rd : Reg} {a : Word} {n : Nat} {v : BitVec (8 * n)}

/-- A load into an integer register completes where its read gives a value (R170). -/
theorem exec_load_wroteX (f : BitVec (8 * n) → Word)
    (hi : exec i s = s.load a n fun s v => s.writeX rd (f v)) (h : s.memRead a n = .done v) :
    ∃ t, exec i s = .next t ∧ s.WroteX t rd (f v) :=
  exec_wroteX (hi.trans (load_done h _))

/-- A load into a single view completes where its read gives a value (R207). -/
theorem exec_load_wroteFS (f : BitVec (8 * n) → Word)
    (hi : exec i s = s.load a n fun s v => s.writeFS rd (f v)) (h : s.memRead a n = .done v) :
    ∃ t, exec i s = .next t ∧ s.WroteFS t rd (f v) :=
  ⟨_, hi.trans (load_done h _), wroteFS_writeFS_retire s rd (f v)⟩

/-- A store completes where its access has a place (R170). -/
theorem exec_store_storedAt (hs : s.storesOk = true) (hi : exec i s = s.store a n v) {q : Place}
    (hq : s.accessPlace a n = .done q) :
    ∃ t, exec i s = .next t ∧ s.StoredAt t q (leBytes n v) :=
  ⟨_, hi.trans (store_done hq v), storedAt_storeAt_retire hs hq (leBytes_length n v)⟩

end

/-- A load of a whole word extends it by nothing. -/
theorem zextLoad_word (v : Word) : zextLoad v = v := BitVec.setWidth_eq v

/-- Settles O30: each meaning is a load whose write is the extension of its rule. -/
theorem loadResults : Obligations.LoadResults := by
  unfold Obligations.LoadResults
  intro s rd rs1 imm
  refine ⟨rfl, fun _ => exec_load_wroteX sextLoad rfl, rfl, fun _ => exec_load_wroteX sextLoad rfl,
    rfl, fun v h => ?_, rfl, fun _ => exec_load_wroteX zextLoad rfl,
    rfl, fun _ => exec_load_wroteX zextLoad rfl, rfl, fun v h => ?_⟩
  · rw [← zextLoad_word v]
    exact exec_load_wroteX zextLoad rfl h
  · rw [← zextLoad_word v]
    exact exec_load_wroteFS zextLoad rfl h

/-- Settles O31: each meaning is a store of the low bytes of its source at the address. -/
theorem storeResults : Obligations.StoreResults := by
  unfold Obligations.StoreResults
  intro s rs1 rs2 imm hs
  exact ⟨rfl, fun _ => exec_store_storedAt hs rfl, rfl, fun _ => exec_store_storedAt hs rfl,
    rfl, fun _ => exec_store_storedAt hs rfl, rfl, fun _ => exec_store_storedAt hs rfl⟩

end Sys2Proof.Machine
end

section
/-!
SUPPORT and PROOFS. Control transfer (43_control.md): the whole state after a transfer and after a branch,
what a jump that links leaves, and the statements about branches, JAL, JALR and the place of `pc`.
-/

namespace Sys2Proof.Machine

/-! ### Where `pc` stands after a step -/

/-- Settles O15: an executed instruction by what every instruction leaves, a faulted step by the two ways
to fault; of the five ways a step ends, the echo-only step alone is unfaulted with `exec_en = 0`. -/
theorem pcAfterAStep : Obligations.PcAfterAStep := by
  unfold Obligations.PcAfterAStep
  refine ⟨fun i s t h => (exec_ran h).pc, fun s t h ht => ?_, fun s t h ht he => ?_⟩
  · cases hs : s.fault with
    | true => rw [step_stuck hs] at h; cases h; rfl
    | false => rw [(step_faulted hs h ht).2]
  · rcases step_cases h with ⟨hf, rfl⟩ | ⟨-, c, -, rfl⟩ | ⟨-, w, -, -, rfl⟩ | ⟨-, -, w, -, -, rfl⟩ |
      ⟨-, hx, -⟩
    · simp [hf] at ht
    · simp at ht
    · simp at ht
    · rfl
    · simp [he] at hx

/-! ### Branches (R181 to R187) -/

/-- The whole state after a transfer (R191). -/
theorem transfer_eq (s : State) (a : Word) : s.transfer a =
    { s with
      pc := a
      counter := s.counter + 1
      status := s.status ||| (if a = s.params.nativePc then 0b00001 else 0) } := by
  unfold State.transfer
  split
  · rfl
  · simp only [BitVec.ofNat_eq_ofNat, BitVec.or_zero]; rfl

theorem ltSigned_iff {a b : Word} : ltSigned a b = true ↔ a.toInt < b.toInt := decide_eq_true_iff

theorem not_ltSigned_iff {a b : Word} : (!ltSigned a b) = true ↔ a.toInt ≥ b.toInt := by
  rw [Bool.not_eq_true', ← Bool.not_eq_true, ltSigned_iff, not_lt]

theorem ltUnsigned_iff {a b : Word} : ltUnsigned a b = true ↔ a.toNat < b.toNat := decide_eq_true_iff

theorem not_ltUnsigned_iff {a b : Word} : (!ltUnsigned a b) = true ↔ a.toNat ≥ b.toNat := by
  rw [Bool.not_eq_true', ← Bool.not_eq_true, ltUnsigned_iff, not_lt]

/-- An instruction whose meaning is the end of a branch completes, by whether its condition holds
(R181). -/
theorem exec_branch {s : State} {i : Instr} {c : Bool} {off : BitVec 13} {P : Prop}
    (hi : exec i s = .next (s.branch c off)) (hc : c = true ↔ P) :
    (P → exec i s = .next { s with
      pc := s.pc + off.signExtend 32
      counter := s.counter + 1
      status := s.status ||| 0b10000 |||
        (if s.pc + off.signExtend 32 = s.params.nativePc then 0b00001 else 0) }) ∧
    (¬P → exec i s = .next { s with pc := s.pc + 4, counter := s.counter + 1 }) := by
  rw [hi, ← hc]
  cases c with
  | true => exact ⟨fun _ => congrArg _ (transfer_eq _ _), fun h => absurd rfl h⟩
  | false => exact ⟨nofun, fun _ => rfl⟩

/-- Settles O35: each meaning is the end of a branch, on the comparison of its rule. -/
theorem branches : Obligations.Branches := by
  unfold Obligations.Branches
  intro s rs1 rs2 off
  have beq := exec_branch (s := s) (i := .beq rs1 rs2 off) rfl beq_iff_eq
  have bne := exec_branch (s := s) (i := .bne rs1 rs2 off) rfl bne_iff_ne
  have blt := exec_branch (s := s) (i := .blt rs1 rs2 off) rfl ltSigned_iff
  have bge := exec_branch (s := s) (i := .bge rs1 rs2 off) rfl not_ltSigned_iff
  have bltu := exec_branch (s := s) (i := .bltu rs1 rs2 off) rfl ltUnsigned_iff
  have bgeu := exec_branch (s := s) (i := .bgeu rs1 rs2 off) rfl not_ltUnsigned_iff
  exact ⟨rfl, beq.1, beq.2, rfl, bne.1, bne.2, rfl, blt.1, blt.2, rfl, bge.1, bge.2,
    rfl, bltu.1, bltu.2, rfl, bgeu.1, bgeu.2⟩

/-! ### JAL and JALR (R188, R189) -/

/-- A jump that links writes one register, as a guarded write does, and no float cell and no byte. -/
theorem linked_transfer (s : State) (rd : Reg) (v a : Word) (b : Status) :
    let t := State.transfer { s.writeX rd v with status := b } a
    t.readX rd = (if rd = 0 then s.readX 0 else v) ∧ s.SameXBut t rd ∧ t.f = s.f ∧ s.SameBytes t := by
  have w := wroteX_writeX_retire s rd v
  rw [transfer_eq]
  exact ⟨w.value, w.others, w.floats, w.bytes⟩

/-- An instruction whose meaning is a link, status bits and a transfer completes: `pc`, the counter, the
status, the sticky flag and the frame by what every instruction leaves. -/
theorem exec_jump {s : State} {i : Instr} {rd : Reg} {a : Word}
    (hi : exec i s = .next (State.transfer
      { s.writeX rd (s.pc + 4) with status := (s.writeX rd (s.pc + 4)).status ||| transferBits i } a))
    (ha : s.transferOf i = some a) :
    ∃ t, exec i s = .next t ∧ t.pc = a ∧ t.counter = s.counter + 1 ∧
      t.status = s.status ||| transferBits i ||| (if a = s.params.nativePc then 0b00001 else 0) ∧
      t.readX rd = (if rd = 0 then s.readX 0 else s.pc + 4) ∧ s.SameXBut t rd ∧ t.f = s.f ∧
      s.SameBytes t ∧ t.fault = s.fault ∧ s.SameFrame t := by
  have r := exec_ran hi
  obtain ⟨hv, ho, hf, hb⟩ := linked_transfer s rd (s.pc + 4) a _
  refine ⟨_, hi, by rw [r.pc, ha]; rfl, r.counter, ?_, hv, ho, hf, hb, r.fault, r.frame⟩
  rw [r.status, eventsOf_of_some ha, BitVec.or_assoc]
  rfl

/-- Settles O36: the word is the UJ format, and the meaning a link and a transfer. -/
theorem jumpAndLink : Obligations.JumpAndLink := by
  unfold Obligations.JumpAndLink
  intro s rd off
  exact ⟨rfl, exec_jump rfl rfl⟩

/-- The meaning of JALR, its status bits put together; the target is of the registers before the link
(R189). -/
theorem exec_jalr (s : State) (rd rs1 : Reg) (imm : BitVec 12) :
    exec (.jalr rd rs1 imm) s = .next (State.transfer
      { s.writeX rd (s.pc + 4) with
        status := (s.writeX rd (s.pc + 4)).status ||| transferBits (.jalr rd rs1 imm) }
      (s.readX rs1 + imm.signExtend 32)) := by
  simp only [exec, execJalr, transferBits, ← BitVec.or_assoc]
  split
  · rfl
  · simp only [BitVec.ofNat_eq_ofNat, BitVec.or_zero]; rfl

/-- Settles O37: the word is the I format, the meaning a link and a transfer, and RET is set for the one
word that is the canonical return. -/
theorem jumpRegister : Obligations.JumpRegister := by
  unfold Obligations.JumpRegister
  intro s rd rs1 imm
  simp only [encode_jalr_eq_ret, BitVec.or_assoc s.status (0b00100 : Status)]
  exact ⟨rfl, exec_jump (exec_jalr s rd rs1 imm) rfl⟩

end Sys2Proof.Machine
end

section
/-!
SUPPORT and PROOFS. System instructions and hooks (44_system_hooks.md): the one meaning of the four hook
instructions, the bytes that no hook can change, and the statements about an absent and a present hook.
-/

namespace Sys2Proof.Machine

/-- The four hook instructions have one meaning: a call with the instruction's word, and the advance
(R197 to R201). -/
theorem exec_of_hookOf {i : Instr} {k : HookKind} (h : hookOf i = some k) (s : State) :
    exec i s = .next (s.callHook k (encode i)).retire := by
  unfold hookOf at h
  split at h <;> cases h <;> rfl

/-- A hook instruction whose hook is absent is the advance alone (R196). -/
theorem exec_absentHook {i : Instr} {k : HookKind} {s : State} (hi : hookOf i = some k)
    (hk : s.hooks.present k = false) :
    exec i s = .next { s with pc := s.pc + 4, counter := s.counter + 1 } := by
  rw [exec_of_hookOf hi, callHook_absent hk]
  rfl

/-- Settles O38: each word is its encoding, and each instruction a hook instruction. -/
theorem absentHookIsANoOp : Obligations.AbsentHookIsANoOp := by
  unfold Obligations.AbsentHookIsANoOp
  intro s rd rs1 rs2 funct3 funct7 w
  exact ⟨rfl, exec_absentHook (k := .ecall) rfl, rfl, exec_absentHook (k := .ebreak) rfl,
    rfl, exec_absentHook (k := .atomic) rfl, exec_absentHook (k := .bitmanip) rfl⟩

/-- No guest address resolves to the place. -/
def State.Unreachable (s : State) (p : Place) : Prop :=
  ∀ (a : Word) (v : View), s.resolve a = some v → s.viewPlace v ≠ p

/-- Which places are out of reach depends only on what never changes. -/
theorem unreachable_congr {s t : State} (h : s.SameFrame t) (p : Place) :
    t.Unreachable p ↔ s.Unreachable p := by
  simp only [State.Unreachable, resolve_congr h, viewPlace_congr h]

/-- A byte a hook writes goes to a place its address resolves to (R195). -/
theorem readPlace_hookByte {s : State} {p : Place} (hp : s.Unreachable p) (a : Word) (b : Byte) :
    (s.hookByte a b).readPlace p = s.readPlace p := by
  rcases hookByte_cases s a b with ⟨q, hq, e⟩ | e <;> rw [e]
  obtain ⟨v, hv, -, rfl⟩ := accessPlace_eq_done hq
  refine sameBytesBut_storeAt s _ _ p fun ⟨hb, hlo, hhi⟩ => hp a v hv ?_
  rw [List.length_singleton] at hhi
  rw [Place.mk.injEq]
  exact ⟨hb.symm, by omega⟩

/-- A hook call leaves every byte out of reach as it was, whatever the hook does (R195). The property its
writes keep holds the frame too: with it a place stays out of reach from one write to the next. -/
theorem readPlace_callHook {s : State} {p : Place} (hp : s.Unreachable p) (k : HookKind) (w : Word) :
    (s.callHook k w).readPlace p = s.readPlace p := by
  have kept : s.SameFrame (s.callHook k w) ∧ (s.callHook k w).readPlace p = s.readPlace p := by
    refine callHook_induct (fun t => s.SameFrame t ∧ t.readPlace p = s.readPlace p)
      ?pokeX ?writeFD ?hookByte ?draw k w ⟨.refl s, rfl⟩
    case pokeX => exact fun t r v ⟨hf, hr⟩ => ⟨hf.trans (sameFrame_pokeX t r v), hr⟩
    case writeFD => exact fun t r v ⟨hf, hr⟩ => ⟨hf.trans (sameFrame_writeFD t r v), hr⟩
    case hookByte =>
      exact fun t a b ⟨hf, hr⟩ => ⟨hf.trans (hookByte_frame t a b),
        (readPlace_hookByte ((unreachable_congr hf p).2 hp) a b).trans hr⟩
    case draw => exact fun t ⟨hf, hr⟩ => ⟨hf.trans (sameFrame_draw t), hr⟩
  exact kept.2

/-- Settles O39: the instruction is a hook call and the advance; the call, whatever it writes, leaves `pc`
and the counter to the advance, and every byte out of reach alone. -/
theorem presentHookStaysInItsBounds : Obligations.PresentHookStaysInItsBounds := by
  unfold Obligations.PresentHookStaysInItsBounds
  intro i k s hi _
  refine ⟨_, exec_of_hookOf hi s, advanced_retire (kept_callHook s k _), fun p hp => ?_⟩
  rw [readPlace_retire, readPlace_callHook hp]

end Sys2Proof.Machine
end

section
/-!
SUPPORT and PROOFS. Binary32 patterns and their rounding (45_float.md, R18, R205): what each reading of a
pattern says of its low 31 bits, the magnitude of those bits in steps, and the rounding of a ratio between
the midpoints next to the pattern it chooses.
-/

namespace Sys2Proof.Machine

/-! ### Reading a pattern by its number -/

/-- Bits 30..0 of a pattern as a number, which orders the patterns of one sign. -/
def f32Low (w : Word) : Nat := w.toNat % 2 ^ 31

/-- The magnitude of the pattern with the low bits `m`, in units of 2^-149. -/
def magOfLow (m : Nat) : Nat :=
  if m / 2 ^ 23 = 0 then m % 2 ^ 23 else (m % 2 ^ 23 + 2 ^ 23) * 2 ^ (m / 2 ^ 23 - 1)

theorem f32Sign_iff (w : Word) : f32Sign w = true ↔ 2 ^ 31 ≤ w.toNat := by
  simp [f32Sign, BitVec.msb_eq_decide]

theorem f32Exp_eq (w : Word) : f32Exp w = f32Low w / 2 ^ 23 := by
  simp only [f32Exp, f32Low, BitVec.extractLsb'_toNat, Nat.shiftRight_eq_div_pow]
  omega

theorem f32Frac_eq (w : Word) : f32Frac w = f32Low w % 2 ^ 23 := by
  simp only [f32Frac, f32Low, BitVec.extractLsb'_toNat, Nat.shiftRight_zero]
  omega

theorem f32Low_lt (w : Word) : f32Low w < 2 ^ 31 := Nat.mod_lt _ (by decide)

theorem isNaN_iff (w : Word) : isNaN w = true ↔ 0x7F800000 < f32Low w := by
  have := f32Low_lt w
  simp only [isNaN, f32Exp_eq, f32Frac_eq, Bool.and_eq_true, beq_iff_eq, bne_iff_ne]
  omega

theorem isInf_iff (w : Word) : isInf w = true ↔ f32Low w = 0x7F800000 := by
  have := f32Low_lt w
  simp only [isInf, f32Exp_eq, f32Frac_eq, Bool.and_eq_true, beq_iff_eq]
  omega

theorem isZero_iff (w : Word) : isZero w = true ↔ f32Low w = 0 := by
  simp only [isZero, f32Low, beq_iff_eq, ← BitVec.toNat_inj, BitVec.extractLsb'_toNat,
    Nat.shiftRight_zero, BitVec.ofNat_eq_ofNat, BitVec.toNat_zero]

/-- A finite pattern. -/
theorem f32Low_lt_of_finite {w : Word} (hn : isNaN w = false) (hi : isInf w = false) :
    f32Low w < 0x7F800000 := by
  rw [← Bool.not_eq_true, isNaN_iff] at hn
  rw [← Bool.not_eq_true, isInf_iff] at hi
  omega

theorem f32Mag_eq (w : Word) : f32Mag w = magOfLow (f32Low w) := by
  simp only [f32Mag, magOfLow, f32Exp_eq, f32Frac_eq, Nat.shiftLeft_eq]
  rfl

/-- A pattern is its sign and its low bits. -/
theorem eq_of_sign_of_low {a b : Word} (hs : f32Sign a = f32Sign b) (hl : f32Low a = f32Low b) : a = b := by
  rw [Bool.eq_iff_iff, f32Sign_iff, f32Sign_iff] at hs
  unfold f32Low at hl
  apply BitVec.eq_of_toNat_eq
  omega

/-! ### Making a pattern -/

theorem f32Pack_toNat (neg : Bool) {m : Nat} (h : m < 2 ^ 31) :
    (f32Pack neg m).toNat = (if neg then 2 ^ 31 else 0) + m := by
  rw [f32Pack, BitVec.toNat_ofNat]
  split <;> omega

theorem f32Low_pack (neg : Bool) {m : Nat} (h : m < 2 ^ 31) : f32Low (f32Pack neg m) = m := by
  rw [f32Low, f32Pack_toNat neg h]
  split <;> omega

theorem f32Sign_pack (neg : Bool) {m : Nat} (h : m < 2 ^ 31) : f32Sign (f32Pack neg m) = neg := by
  rw [Bool.eq_iff_iff, f32Sign_iff, f32Pack_toNat neg h]
  cases neg with
  | true => simp
  | false => simpa using h

theorem f32Neg_toNat (w : Word) : (f32Neg w).toNat = w.toNat ^^^ 2 ^ 31 := rfl

theorem f32Sign_neg (w : Word) : f32Sign (f32Neg w) = !f32Sign w := by
  simp only [f32Sign, f32Neg, BitVec.msb_xor]
  exact Bool.xor_true _

theorem f32Low_neg (w : Word) : f32Low (f32Neg w) = f32Low w := by
  rw [f32Low, f32Neg_toNat, Nat.xor_mod_two_pow]
  simp [f32Low]

@[simp] theorem isNaN_neg (w : Word) : isNaN (f32Neg w) = isNaN w := by
  rw [Bool.eq_iff_iff, isNaN_iff, isNaN_iff, f32Low_neg]

@[simp] theorem isInf_neg (w : Word) : isInf (f32Neg w) = isInf w := by
  rw [Bool.eq_iff_iff, isInf_iff, isInf_iff, f32Low_neg]

/-- Flipping the sign bit negates the value. -/
theorem f32Val_neg (w : Word) : f32Val (f32Neg w) = -f32Val w := by
  simp only [f32Val, f32Mag_eq, f32Sign_neg, f32Low_neg]
  cases f32Sign w <;> simp

/-! ### The magnitude in steps -/

/-- The next pattern is one unit of the last place larger, across exponents too. -/
theorem magOfLow_succ (m : Nat) : magOfLow (m + 1) = magOfLow m + 2 ^ (m / 2 ^ 23 - 1) := by
  unfold magOfLow
  by_cases hc : (m + 1) / 2 ^ 23 = m / 2 ^ 23
  · rw [hc, show (m + 1) % 2 ^ 23 = m % 2 ^ 23 + 1 by omega]
    split
    next h => rw [h]; rfl
    next h => rw [Nat.add_right_comm, Nat.succ_mul]
  · have hq : (m + 1) / 2 ^ 23 = m / 2 ^ 23 + 1 := by omega
    rw [hq, show (m + 1) % 2 ^ 23 = 0 by omega, show m % 2 ^ 23 = 2 ^ 23 - 1 by omega,
      if_neg (Nat.succ_ne_zero _), Nat.add_sub_cancel]
    split
    next h => rw [h]; rfl
    next h =>
      obtain ⟨k, hk⟩ := Nat.exists_eq_succ_of_ne_zero h
      rw [hk, Nat.succ_sub_one, pow_succ]
      omega

theorem magOfLow_strictMono : StrictMono magOfLow :=
  strictMono_nat_of_lt_succ fun m => by rw [magOfLow_succ]; exact Nat.lt_add_of_pos_right (by positivity)

/-- The magnitude of an exponent and a significand put together as `roundMag` does. -/
theorem magOfLow_add {e q : Nat} (hq : q < 2 ^ 24) (h : e = 0 ∨ 2 ^ 23 ≤ q) :
    magOfLow (e * 2 ^ 23 + q) = q * 2 ^ e ∧ magOfLow (e * 2 ^ 23 + q + 1) = (q + 1) * 2 ^ e := by
  have key : magOfLow (e * 2 ^ 23 + q) = q * 2 ^ e ∧ (e * 2 ^ 23 + q) / 2 ^ 23 - 1 = e := by
    unfold magOfLow
    by_cases hs : q < 2 ^ 23
    · obtain rfl : e = 0 := by omega
      rw [if_pos (by omega)]
      constructor <;> omega
    · rw [if_neg (by omega), show (e * 2 ^ 23 + q) % 2 ^ 23 + 2 ^ 23 = q by omega,
        show (e * 2 ^ 23 + q) / 2 ^ 23 - 1 = e by omega]
      exact ⟨rfl, rfl⟩
  rw [magOfLow_succ, key.1, key.2]
  exact ⟨rfl, by ring⟩

theorem magOfLow_zero : magOfLow 0 = 0 := rfl

/-- The largest finite magnitude and the one beyond it that an infinity stands for. -/
theorem magOfLow_top : magOfLow 0x7F7FFFFF = (2 ^ 24 - 1) * 2 ^ 253 ∧ magOfLow 0x7F800000 = 2 ^ 24 * 2 ^ 253 :=
  ⟨rfl, rfl⟩

/-! ### The rounding -/

/-- The low bits `b` lie nearest to `num / den`, even in a tie: the ratio is not beyond the midpoint to
the next magnitude, nor below the midpoint to the one before. -/
structure MidpointsAround (b num den : Nat) : Prop where
  above : 2 * num ≤ (magOfLow b + magOfLow (b + 1)) * den
  aboveTie : 2 * num = (magOfLow b + magOfLow (b + 1)) * den → b % 2 = 0
  below : ∀ c, c + 1 = b → (magOfLow c + magOfLow b) * den ≤ 2 * num
  belowTie : ∀ c, c + 1 = b → (magOfLow c + magOfLow b) * den = 2 * num → b % 2 = 0

/-- The low bits `roundMag` chooses before it puts infinity for what is too large. -/
def roundMagUnbounded (num den : Nat) : Nat :=
  let e := Nat.log2 (num / den) - 23
  let d := den <<< e
  e <<< 23 + (num / d + tieEvenUp (num / d) (num % d) d)

theorem roundMag_eq (num den : Nat) : roundMag num den = min (roundMagUnbounded num den) 0x7F800000 := by
  have h : roundMag num den = if roundMagUnbounded num den < 0x7F800000 then roundMagUnbounded num den
    else 0x7F800000 := rfl
  rw [h]
  split <;> omega

/-- The significand has at most 24 bits, and exactly 24 unless the exponent is the least. -/
theorem significand_bounds (n : Nat) :
    n / 2 ^ (n.log2 - 23) < 2 ^ 24 ∧ (n.log2 - 23 = 0 ∨ 2 ^ 23 ≤ n / 2 ^ (n.log2 - 23)) := by
  have hlt : n < 2 ^ (n.log2 + 1) := Nat.lt_log2_self
  constructor
  · rw [Nat.div_lt_iff_lt_mul (by positivity), ← pow_add]
    exact hlt.trans_le (Nat.pow_le_pow_right (by decide) (by omega))
  · by_cases he : n.log2 - 23 = 0
    · exact .inl he
    · have hn : n ≠ 0 := by rintro rfl; simp at he
      right
      rw [Nat.le_div_iff_mul_le (by positivity), ← pow_add, show 23 + (n.log2 - 23) = n.log2 by omega]
      exact Nat.log2_self_le hn

/-- The ratio lies from the pattern rounded down to, up to the next; `tieEvenUp` decides between them. -/
theorem roundMagUnbounded_cases (num : Nat) {den : Nat} (hd : 0 < den) : ∃ m d r,
    roundMagUnbounded num den = m + tieEvenUp m r d ∧ r < d ∧ num = magOfLow m * den + r ∧
    magOfLow (m + 1) * den = magOfLow m * den + d := by
  have ⟨hq, he⟩ := significand_bounds (num / den)
  set e := (num / den).log2 - 23 with hedef
  rw [Nat.div_div_eq_div_mul] at hq he
  obtain ⟨hm, hm'⟩ := magOfLow_add hq he
  refine ⟨e * 2 ^ 23 + num / (den * 2 ^ e), den * 2 ^ e, num % (den * 2 ^ e), ?_,
    Nat.mod_lt _ (by positivity), ?_, ?_⟩
  · simp only [roundMagUnbounded, ← hedef, Nat.shiftLeft_eq, tieEvenUp, ← Nat.add_assoc]
    rw [show (e * 2 ^ 23 + num / (den * 2 ^ e)) % 2 = num / (den * 2 ^ e) % 2 by omega]
  · rw [hm, mul_assoc, mul_comm (2 ^ e), Nat.div_add_mod']
  · rw [hm, hm']
    ring

theorem roundMagUnbounded_midpoints (num : Nat) {den : Nat} (hd : 0 < den) :
    MidpointsAround (roundMagUnbounded num den) num den := by
  obtain ⟨m, d, r, hb, hr, hnum, hd'⟩ := roundMagUnbounded_cases num hd
  rw [hb]
  have hup : magOfLow (m + 1) * den < magOfLow (m + 1 + 1) * den :=
    Nat.mul_lt_mul_of_pos_right (magOfLow_strictMono (Nat.lt_succ_self _)) hd
  unfold tieEvenUp
  split
  case isTrue h =>
    exact {
      above := by rw [add_mul]; omega
      aboveTie := fun ht => by rw [add_mul] at ht; omega
      below := fun c hc => by rw [Nat.succ.inj hc, add_mul]; omega
      belowTie := fun c hc ht => by rw [Nat.succ.inj hc, add_mul] at ht; omega }
  case isFalse h =>
    rw [Nat.add_zero]
    have hdown : ∀ c, c + 1 = m → magOfLow c * den < magOfLow m * den := fun c hc =>
      Nat.mul_lt_mul_of_pos_right (magOfLow_strictMono (by omega)) hd
    exact {
      above := by rw [add_mul]; omega
      aboveTie := fun ht => by rw [add_mul] at ht; omega
      below := fun c hc => by have := hdown c hc; rw [add_mul]; omega
      belowTie := fun c hc ht => by have := hdown c hc; rw [add_mul] at ht; omega }

/-- Against every larger pattern, by the midpoint to the next. -/
theorem MidpointsAround.above_of_lt {b num den c : Nat} (h : MidpointsAround b num den) (hc : b < c) :
    2 * num ≤ (magOfLow b + magOfLow c) * den ∧
      (2 * num = (magOfLow b + magOfLow c) * den → b % 2 = 0) := by
  have hle : (magOfLow b + magOfLow (b + 1)) * den ≤ (magOfLow b + magOfLow c) * den :=
    Nat.mul_le_mul_right den (Nat.add_le_add_left (magOfLow_strictMono.monotone hc) _)
  exact ⟨h.above.trans hle, fun ht => h.aboveTie (h.above.antisymm (hle.trans ht.ge))⟩

/-- Against every smaller pattern, by the midpoint to the one before. -/
theorem MidpointsAround.below_of_lt {b num den c : Nat} (h : MidpointsAround b num den) (hc : c < b) :
    (magOfLow c + magOfLow b) * den ≤ 2 * num ∧
      ((magOfLow c + magOfLow b) * den = 2 * num → b % 2 = 0) := by
  obtain ⟨k, rfl⟩ := Nat.exists_eq_add_one_of_ne_zero (Nat.ne_zero_of_lt hc)
  have hle : (magOfLow c + magOfLow (k + 1)) * den ≤ (magOfLow k + magOfLow (k + 1)) * den :=
    Nat.mul_le_mul_right den (Nat.add_le_add_right (magOfLow_strictMono.monotone (Nat.le_of_lt_succ hc)) _)
  have hk := h.below k rfl
  exact ⟨hle.trans hk, fun ht => h.belowTie k rfl (hk.antisymm (ht.ge.trans hle))⟩

/-- The distance of a magnitude from `num / den`, in `den`-ths of a unit. -/
def magGap (num den c : Nat) : Nat := ((magOfLow c * den : Int) - num).natAbs

/-- Between midpoints is nearest, and even in a tie. -/
theorem MidpointsAround.nearest {b num den : Nat} (h : MidpointsAround b num den) (hd : 0 < den) (c : Nat) :
    magGap num den b ≤ magGap num den c ∧ (magGap num den b = magGap num den c → c ≠ b → b % 2 = 0) := by
  simp only [magGap, ← Nat.cast_mul]
  rcases Nat.lt_trichotomy b c with hc | rfl | hc
  · have hlt := Nat.mul_lt_mul_of_pos_right (magOfLow_strictMono hc) hd
    have ⟨hle, htie⟩ := h.above_of_lt hc
    rw [add_mul] at hle htie
    exact ⟨by omega, fun he _ => htie (by omega)⟩
  · exact ⟨le_rfl, fun _ hne => absurd rfl hne⟩
  · have hlt := Nat.mul_lt_mul_of_pos_right (magOfLow_strictMono hc) hd
    have ⟨hle, htie⟩ := h.below_of_lt hc
    rw [add_mul] at hle htie
    exact ⟨by omega, fun he _ => htie (by omega)⟩

theorem roundMag_le (num den : Nat) : roundMag num den ≤ 0x7F800000 := by
  rw [roundMag_eq]
  exact Nat.min_le_right _ _

theorem roundMag_lt (num den : Nat) : roundMag num den < 2 ^ 31 :=
  (roundMag_le num den).trans_lt (by decide)

theorem roundMag_midpoints {num den : Nat} (hd : 0 < den) (h : roundMag num den < 0x7F800000) :
    MidpointsAround (roundMag num den) num den := by
  have heq : roundMag num den = roundMagUnbounded num den := by
    rw [roundMag_eq] at h ⊢
    omega
  rw [heq]
  exact roundMagUnbounded_midpoints num hd

/-- The midpoint above the largest finite pattern, which is odd, is the overflow threshold. -/
theorem roundMag_eq_inf_iff {num den : Nat} (hd : 0 < den) :
    roundMag num den = 0x7F800000 ↔ (2 ^ 25 - 1) * 2 ^ 253 * den ≤ 2 * num := by
  have hmid : magOfLow 0x7F7FFFFF + magOfLow 0x7F800000 = (2 ^ 25 - 1) * 2 ^ 253 := by
    rw [magOfLow_top.1, magOfLow_top.2]; rfl
  rw [← hmid]
  have h := roundMagUnbounded_midpoints num hd
  rw [roundMag_eq, min_eq_right_iff]
  constructor
  · intro hge
    have hle := (h.below_of_lt (c := 0x7F7FFFFF) (by omega)).1
    exact (Nat.mul_le_mul_right den (Nat.add_le_add_left (magOfLow_strictMono.monotone hge) _)).trans hle
  · intro hle
    by_contra hlt
    have hb : roundMagUnbounded num den ≤ 0x7F7FFFFF := by omega
    have ⟨habove, htie⟩ := h.above_of_lt (c := 0x7F800000) (by omega)
    have hback := Nat.mul_le_mul_right den
      (Nat.add_le_add_right (magOfLow_strictMono.monotone hb) (magOfLow 0x7F800000))
    have heq := Nat.eq_of_mul_eq_mul_right hd ((hle.trans habove).antisymm hback)
    have htop := magOfLow_strictMono.injective (Nat.add_right_cancel heq)
    have heven := htie (habove.antisymm (hback.trans hle))
    omega

/-- Settles O45: the rounding is between the midpoints, and so nearest and even in a tie; the midpoint
above the largest finite pattern is the threshold. -/
theorem roundingIsToNearestEven : Obligations.RoundingIsToNearestEven := by
  unfold Obligations.RoundingIsToNearestEven
  intro num den hd
  have hmag : ∀ c ≤ 0x7F800000, f32Mag (BitVec.ofNat 32 c) = magOfLow c := fun c hc => by
    rw [f32Mag_eq, f32Low, BitVec.toNat_ofNat]
    congr 1
    omega
  refine ⟨roundMag_le num den, roundMag_eq_inf_iff hd, fun hb c hc => ?_⟩
  simp only [hmag c hc.le, hmag _ hb.le]
  exact (roundMag_midpoints hd hb).nearest hd c

end Sys2Proof.Machine
end

section
/-!
SUPPORT and PROOFS. The arithmetic results (45_float.md, R209 to R213, R228): a sign over a rounded magnitude
is the pattern nearest to the value, and each operation on finite operands is that, the square root through
the midpoints next to it; and what the infinities, NaNs and zeros give.
-/

namespace Sys2Proof.Machine

/-! ### A sign over a rounded magnitude -/

theorem f32Val_eq (w : Word) :
    f32Val w = if f32Sign w then -(magOfLow (f32Low w) : Int) else magOfLow (f32Low w) := by
  rw [f32Val, f32Mag_eq]

section
variable {c : Word} {neg : Bool} {num : Int} (den : Nat) (hs : num ≠ 0 → (neg = true ↔ num < 0))
include hs

/-- The distance of a pattern from a value of its own sign is that of the magnitudes. -/
theorem gap_of_same_sign (hc : f32Sign c = neg) :
    (f32Val c * den - num).natAbs = magGap num.natAbs den (f32Low c) := by
  rw [f32Val_eq, magGap, hc]
  by_cases hn : num = 0
  · rw [hn]
    split <;> simp
  · have hs := hs hn
    split
    next h => rw [neg_mul]; have := hs.1 h; omega
    next h => have := mt hs.2 h; omega

/-- A pattern of the other sign is as far away as zero is, and its magnitude more. -/
theorem gap_of_other_sign (hc : f32Sign c = !neg) :
    (f32Val c * den - num).natAbs = magGap num.natAbs den 0 + magOfLow (f32Low c) * den := by
  rw [f32Val_eq, magGap, hc, magOfLow_zero, Nat.cast_zero, zero_mul]
  have hcast : (magOfLow (f32Low c) : Int) * den = (magOfLow (f32Low c) * den : Nat) := by simp
  by_cases hn : num = 0
  · rw [hn]
    split <;> simp [Int.natAbs_mul]
  · have hs := hs hn
    cases neg with
    | true => have := hs.1 rfl; simp only [Bool.not_true, Bool.false_eq_true, if_false, hcast]; omega
    | false => have := mt hs.2 nofun; simp only [Bool.not_false, if_true, neg_mul, hcast]; omega

end

/-- The rounded magnitude under the sign of the value is the nearest pattern; a zero value may have either
sign. -/
theorem nearestPattern_pack {neg : Bool} {num : Int} {den : Nat} (hd : 0 < den)
    (hs : num ≠ 0 → (neg = true ↔ num < 0)) :
    NearestPattern (f32Pack neg (roundMag num.natAbs den)) num den := by
  have hlow := f32Low_pack neg (roundMag_lt num.natAbs den)
  have hsign := f32Sign_pack neg (roundMag_lt num.natAbs den)
  have hgap := gap_of_same_sign den hs hsign
  rw [hlow] at hgap
  have hmid (hi : isInf (f32Pack neg (roundMag num.natAbs den)) = false) :
      MidpointsAround (roundMag num.natAbs den) num.natAbs den := by
    rw [← Bool.not_eq_true, isInf_iff, hlow] at hi
    exact roundMag_midpoints hd (lt_of_le_of_ne (roundMag_le _ _) hi)
  refine ⟨?notNaN, ?inf, fun hn => by rw [hsign, hs hn], fun hi c _ _ => ?nearest, fun hi c _ _ hne heq => ?even⟩
  case notNaN =>
    rw [← Bool.not_eq_true, isNaN_iff, hlow]
    exact (roundMag_le _ _).not_gt
  case inf =>
    rw [isInf_iff, hlow]
    exact roundMag_eq_inf_iff hd
  case nearest =>
    rw [hgap]
    rcases Bool.eq_or_eq_not (f32Sign c) neg with hc | hc
    · rw [gap_of_same_sign den hs hc]
      exact ((hmid hi).nearest hd _).1
    · rw [gap_of_other_sign den hs hc]
      exact ((hmid hi).nearest hd 0).1.trans (Nat.le_add_right _ _)
  case even =>
    suffices h : roundMag num.natAbs den % 2 = 0 by
      rw [f32Pack_toNat neg (roundMag_lt _ _)]
      split <;> omega
    rw [hgap] at heq
    rcases Bool.eq_or_eq_not (f32Sign c) neg with hc | hc
    · rw [gap_of_same_sign den hs hc] at heq
      refine ((hmid hi).nearest hd _).2 heq fun hl => hne ?_
      rw [eq_of_sign_of_low (hc.trans hsign.symm) (hl.trans hlow.symm)]
    · rw [gap_of_other_sign den hs hc] at heq
      have ⟨hle, htie⟩ := (hmid hi).nearest hd 0
      by_cases hz : roundMag num.natAbs den = 0
      · rw [hz]
      · exact htie (by omega) (Ne.symm hz)

theorem roundMag_zero (den : Nat) : roundMag 0 den = 0 := by
  simp [roundMag, tieEvenUp]

/-- `roundVal` is a sign over a rounded magnitude, zero included. -/
theorem roundVal_eq (v : Int) (den : Nat) (zeroNeg : Bool) : roundVal v den zeroNeg =
    f32Pack (if v = 0 then zeroNeg else v < 0) (roundMag v.natAbs den) := by
  unfold roundVal
  split
  next h => rw [h, Int.natAbs_zero, roundMag_zero]
  next h => rfl

theorem nearestPattern_roundVal (v : Int) {den : Nat} (hd : 0 < den) (zeroNeg : Bool) :
    NearestPattern (roundVal v den zeroNeg) v den := by
  rw [roundVal_eq]
  exact nearestPattern_pack hd fun hv => by simp [hv]

theorem f32Pack_zero (neg : Bool) : f32Pack neg 0 = if neg then 0x80000000 else 0 := by
  cases neg <;> rfl

/-- An exact zero has the sign asked for. -/
theorem roundVal_zero (den : Nat) (zeroNeg : Bool) :
    roundVal 0 den zeroNeg = if zeroNeg then 0x80000000 else 0 := f32Pack_zero zeroNeg

theorem f32One_eq : f32One = 2 ^ 149 := rfl

/-! ### Sums -/

theorem f32Add_finite {a b : Word} (hna : isNaN a = false) (hnb : isNaN b = false) (hia : isInf a = false)
    (hib : isInf b = false) : f32Add a b = some (roundVal (f32Val a + f32Val b) 1 (f32Sign a && f32Sign b)) := by
  simp [f32Add, hna, hnb, hia, hib]

/-- The sum of finite operands, with the sign of an exact zero (R209). -/
theorem f32Add_nearest {a b : Word} (hna : isNaN a = false) (hnb : isNaN b = false) (hia : isInf a = false)
    (hib : isInf b = false) : ∃ r, f32Add a b = some r ∧ NearestPattern r (f32Val a + f32Val b) 1 ∧
      (f32Val a + f32Val b = 0 → r = if f32Sign a = true ∧ f32Sign b = true then 0x80000000 else 0) := by
  refine ⟨_, f32Add_finite hna hnb hia hib, nearestPattern_roundVal _ one_pos _, fun h => ?_⟩
  rw [h, roundVal_zero]
  simp only [Bool.and_eq_true]

/-- The difference of finite operands is the sum with the second negated (R210). -/
theorem f32Sub_nearest {a b : Word} (hna : isNaN a = false) (hnb : isNaN b = false) (hia : isInf a = false)
    (hib : isInf b = false) : ∃ r, f32Sub a b = some r ∧ NearestPattern r (f32Val a - f32Val b) 1 ∧
      (f32Val a - f32Val b = 0 → r = if f32Sign a = true ∧ f32Sign b = false then 0x80000000 else 0) := by
  have h := f32Add_nearest (b := f32Neg b) hna (by rw [isNaN_neg, hnb]) hia (by rw [isInf_neg, hib])
  unfold f32Sub
  simpa only [f32Val_neg, f32Sign_neg, ← sub_eq_add_neg, Bool.not_eq_true'] using h

/-! ### Products and quotients -/

theorem f32Val_natAbs (w : Word) : (f32Val w).natAbs = f32Mag w := by
  unfold f32Val; split <;> omega

theorem f32Val_neg_iff {w : Word} (h : f32Val w ≠ 0) : f32Sign w = true ↔ f32Val w < 0 := by
  unfold f32Val at h ⊢
  cases f32Sign w with
  | true => simp only [if_true, true_iff] at h ⊢; omega
  | false => simp

/-- The exclusive or of the signs is the sign of a product that is not zero. -/
theorem sign_xor_iff {a b : Word} (h : f32Val a * f32Val b ≠ 0) :
    (f32Sign a != f32Sign b) = true ↔ f32Val a * f32Val b < 0 := by
  have ha := f32Val_neg_iff (left_ne_zero_of_mul h)
  have hb := f32Val_neg_iff (right_ne_zero_of_mul h)
  rw [bne_iff_ne, ne_eq, Bool.eq_iff_iff, ha, hb, mul_neg_iff]
  have := left_ne_zero_of_mul h
  have := right_ne_zero_of_mul h
  omega

/-- The product of finite operands (R211). -/
theorem f32Mul_nearest {a b : Word} (hna : isNaN a = false) (hnb : isNaN b = false) (hia : isInf a = false)
    (hib : isInf b = false) : ∃ r, f32Mul a b = some r ∧ NearestPattern r (f32Val a * f32Val b) (2 ^ 149) ∧
      (f32Sign r = true ↔ f32Sign a ≠ f32Sign b) := by
  refine ⟨f32Pack (f32Sign a != f32Sign b) (roundMag (f32Val a * f32Val b).natAbs (2 ^ 149)), ?_,
    nearestPattern_pack (by positivity) sign_xor_iff, ?_⟩
  · simp [f32Mul, hna, hnb, hia, hib, Int.natAbs_mul, f32Val_natAbs, f32One_eq]
  · rw [f32Sign_pack _ (roundMag_lt _ _), bne_iff_ne]

/-- A pattern that is no zero has a positive magnitude. -/
theorem f32Mag_pos {w : Word} (h : isZero w = false) : 0 < f32Mag w := by
  rw [← Bool.not_eq_true, isZero_iff] at h
  rw [f32Mag_eq]
  exact magOfLow_strictMono (Nat.pos_of_ne_zero h)

/-- The quotient of finite operands by one that is no zero (R212). -/
theorem f32Div_nearest {a b : Word} (hna : isNaN a = false) (hnb : isNaN b = false) (hia : isInf a = false)
    (hib : isInf b = false) (hz : isZero b = false) : ∃ r, f32Div a b = some r ∧
      NearestPattern r (f32Val a * 2 ^ 149 * (f32Val b).sign) (f32Mag b) ∧
      (f32Sign r = true ↔ f32Sign a ≠ f32Sign b) := by
  have hb : f32Val b ≠ 0 := by
    rw [← Int.natAbs_ne_zero, f32Val_natAbs]
    exact (f32Mag_pos hz).ne'
  have hnum : (f32Val a * 2 ^ 149 * (f32Val b).sign).natAbs = f32Mag a * f32One := by
    rw [Int.natAbs_mul, Int.natAbs_mul, f32Val_natAbs, Int.natAbs_sign_of_ne_zero hb, mul_one, Int.natAbs_pow,
      f32One_eq]
    norm_num
  refine ⟨f32Pack (f32Sign a != f32Sign b) (roundMag (f32Val a * 2 ^ 149 * (f32Val b).sign).natAbs (f32Mag b)),
    ?_, ?_, ?_⟩
  · rw [hnum]
    simp [f32Div, hna, hnb, hia, hib, hz]
  · refine nearestPattern_pack (f32Mag_pos hz) fun h => ?_
    have ha := left_ne_zero_of_mul (left_ne_zero_of_mul h)
    have hunit (x : Int) : x * 2 ^ 149 < 0 ↔ x < 0 := by omega
    rw [sign_xor_iff (mul_ne_zero ha hb), mul_right_comm, hunit, mul_neg_iff, mul_neg_iff, Int.sign_pos_iff,
      Int.sign_neg_iff]
  · rw [f32Sign_pack _ (roundMag_lt _ _), bne_iff_ne]

/-- The once-rounded fused operation on finite operands, with the sign of an exact zero (R228). -/
theorem f32Fma_nearest {a b c : Word} (hna : isNaN a = false) (hnb : isNaN b = false) (hnc : isNaN c = false)
    (hia : isInf a = false) (hib : isInf b = false) (hic : isInf c = false) :
    ∃ r, f32Fma a b c = some r ∧ NearestPattern r (f32Val a * f32Val b + f32Val c * 2 ^ 149) (2 ^ 149) ∧
      (f32Val a * f32Val b + f32Val c * 2 ^ 149 = 0 →
        r = if f32Sign a ≠ f32Sign b ∧ f32Sign c = true then 0x80000000 else 0) := by
  refine ⟨roundVal (f32Val a * f32Val b + f32Val c * 2 ^ 149) (2 ^ 149)
    ((f32Sign a != f32Sign b) && f32Sign c), ?_, nearestPattern_roundVal _ (by positivity) _, fun h => ?_⟩
  · simp [f32Fma, hna, hnb, hnc, hia, hib, hic, f32One_eq]
  · rw [h, roundVal_zero]
    simp only [Bool.and_eq_true, bne_iff_ne]

/-- Settles O60: each of the three operations rounds its exact value once. -/
theorem productQuotientAndFusedAreNearest : Obligations.ProductQuotientAndFusedAreNearest := by
  unfold Obligations.ProductQuotientAndFusedAreNearest
  exact ⟨fun _ _ hna hnb hia hib => ⟨f32Mul_nearest hna hnb hia hib, f32Div_nearest hna hnb hia hib⟩,
    fun _ _ _ => f32Fma_nearest⟩

/-! ### Square roots -/

/-- The search keeps the root between what it has found and `2^k` more. -/
theorem isqrtFrom_spec (k n r : Nat) (hlo : r * r ≤ n) (hhi : n < (r + 2 ^ k) * (r + 2 ^ k)) :
    isqrtFrom k n r * isqrtFrom k n r ≤ n ∧ n < (isqrtFrom k n r + 1) * (isqrtFrom k n r + 1) := by
  induction k generalizing r with
  | zero => exact ⟨hlo, hhi⟩
  | succ k ih =>
    simp only [isqrtFrom, Nat.one_shiftLeft]
    split
    case isTrue h => exact ih _ h (by rwa [Nat.add_assoc, ← Nat.two_mul, ← Nat.pow_succ'])
    case isFalse h => exact ih _ hlo (Nat.lt_of_not_le h)

theorem isqrt_spec {n : Nat} (h : n < 2 ^ 214 * 2 ^ 214) : isqrt n * isqrt n ≤ n ∧ n < (isqrt n + 1) * (isqrt n + 1) :=
  isqrtFrom_spec 214 n 0 (Nat.zero_le _) (by rwa [Nat.zero_add])

theorem sqrtHalves_bounds (n : Nat) : 2 * isqrt n ≤ sqrtHalves n ∧ sqrtHalves n ≤ 2 * isqrt n + 1 := by
  unfold sqrtHalves
  split <;> omega

/-- An even number of half units compares with `sqrtHalves` as its square does with the number: the odd
number it puts for an irrational root stands between the even ones beside the root. -/
theorem sqrtHalves_even {n : Nat} (h : n < 2 ^ 214 * 2 ^ 214) (k : Nat) :
    (sqrtHalves n ≤ 2 * k → n ≤ k * k) ∧ (2 * k ≤ sqrtHalves n → k * k ≤ n) := by
  have ⟨hlo, hhi⟩ := isqrt_spec h
  have ⟨_, hle⟩ := sqrtHalves_bounds n
  refine ⟨fun hk => ?_, fun hk => ?_⟩
  · unfold sqrtHalves at hk
    split at hk
    case isTrue hs =>
      have hsk : isqrt n ≤ k := by omega
      exact hs.ge.trans (Nat.mul_le_mul hsk hsk)
    case isFalse =>
      have hsk : isqrt n + 1 ≤ k := by omega
      exact hhi.le.trans (Nat.mul_le_mul hsk hsk)
  · have hsk : k ≤ isqrt n := by omega
    exact (Nat.mul_le_mul hsk hsk).trans hlo

/-- Magnitudes from the pattern `2^24` upward are even. -/
theorem magOfLow_even {m : Nat} (h : 2 ^ 24 ≤ m) : magOfLow m % 2 = 0 := by
  obtain ⟨k, hk⟩ : ∃ k, m / 2 ^ 23 = k + 2 := ⟨m / 2 ^ 23 - 2, by omega⟩
  rw [magOfLow, hk, if_neg (by omega)]
  exact Nat.mod_eq_zero_of_dvd ((dvd_pow_self 2 (Nat.succ_ne_zero k)).mul_left _)

/-- Where the midpoints beside a pattern are even they compare in squares, and with them every number
farther out. -/
theorem MidpointsAround.sqrt {b n : Nat} (h : MidpointsAround b (sqrtHalves n) 2) (hn : n < 2 ^ 214 * 2 ^ 214)
    (hb : 2 ^ 24 < b) (c : Nat) :
    (b < c → 4 * n ≤ (magOfLow b + magOfLow c) ^ 2) ∧ (c < b → (magOfLow c + magOfLow b) ^ 2 ≤ 4 * n) := by
  have hsquare (k : Nat) : (2 * k) ^ 2 = 4 * (k * k) := by ring
  have heven := magOfLow_even hb.le
  refine ⟨fun hc => ?_, fun hc => ?_⟩
  · obtain ⟨k, hk⟩ : ∃ k, magOfLow b + magOfLow (b + 1) = 2 * k :=
      ⟨(magOfLow b + magOfLow (b + 1)) / 2, by have := magOfLow_even (m := b + 1) (by omega); omega⟩
    calc 4 * n ≤ (2 * k) ^ 2 := by
          rw [hsquare]
          have := h.above
          exact Nat.mul_le_mul_left 4 ((sqrtHalves_even hn k).1 (by omega))
      _ ≤ (magOfLow b + magOfLow c) ^ 2 := by
          rw [← hk]
          exact Nat.pow_le_pow_left (Nat.add_le_add_left (magOfLow_strictMono.monotone hc) _) 2
  · obtain ⟨m, rfl⟩ := Nat.exists_eq_add_one_of_ne_zero (Nat.ne_zero_of_lt hc)
    obtain ⟨k, hk⟩ : ∃ k, magOfLow m + magOfLow (m + 1) = 2 * k :=
      ⟨(magOfLow m + magOfLow (m + 1)) / 2, by have := magOfLow_even (m := m) (by omega); omega⟩
    calc (magOfLow c + magOfLow (m + 1)) ^ 2 ≤ (2 * k) ^ 2 := by
          rw [← hk]
          exact Nat.pow_le_pow_left (Nat.add_le_add_right (magOfLow_strictMono.monotone (by omega)) _) 2
      _ ≤ 4 * n := by
          rw [hsquare]
          have := h.below m rfl
          exact Nat.mul_le_mul_left 4 ((sqrtHalves_even hn k).2 (by omega))

/-- The rounded root of a positive finite magnitude is finite and large, with its midpoints beside it. -/
theorem roundMag_sqrt {m : Nat} (hpos : 0 < m) (hm : m < 2 ^ 277) :
    2 ^ 24 < roundMag (sqrtHalves (m * 2 ^ 149)) 2 ∧ roundMag (sqrtHalves (m * 2 ^ 149)) 2 < 0x7F800000 ∧
      MidpointsAround (roundMag (sqrtHalves (m * 2 ^ 149)) 2) (sqrtHalves (m * 2 ^ 149)) 2 := by
  have ⟨hlo, hhi⟩ := isqrt_spec (n := m * 2 ^ 149) (by omega)
  have ⟨hge, hle⟩ := sqrtHalves_bounds (m * 2 ^ 149)
  have hs : isqrt (m * 2 ^ 149) < 2 ^ 213 := by
    by_contra hc
    have := Nat.mul_le_mul (Nat.le_of_not_lt hc) (Nat.le_of_not_lt hc)
    omega
  have hs' : 2 ^ 74 ≤ isqrt (m * 2 ^ 149) := by
    by_contra hc
    have hc : isqrt (m * 2 ^ 149) + 1 ≤ 2 ^ 74 := by omega
    have := Nat.mul_le_mul hc hc
    omega
  have hfin : roundMag (sqrtHalves (m * 2 ^ 149)) 2 < 0x7F800000 := by
    refine lt_of_le_of_ne (roundMag_le _ _) fun hc => ?_
    have := (roundMag_eq_inf_iff two_pos).1 hc
    omega
  have hmid := roundMag_midpoints two_pos hfin
  refine ⟨?_, hfin, hmid⟩
  by_contra hc
  have hc : roundMag (sqrtHalves (m * 2 ^ 149)) 2 < 2 ^ 24 + 1 := by omega
  have hmag : magOfLow (2 ^ 24 + 1) = 2 ^ 24 + 2 := rfl
  have hb := magOfLow_strictMono hc
  have := (hmid.above_of_lt hc).1
  omega

theorem f32Sqrt_positive {a : Word} (hn : isNaN a = false) (hi : isInf a = false) (hz : isZero a = false)
    (hs : f32Sign a = false) :
    f32Sqrt a = some (f32Pack false (roundMag (sqrtHalves (f32Mag a * f32One)) 2)) := by
  simp [f32Sqrt, hn, hi, hz, hs]

/-- The root of a positive finite operand (R213). -/
theorem f32Sqrt_nearest {a : Word} (hn : isNaN a = false) (hi : isInf a = false) (hz : isZero a = false)
    (hs : f32Sign a = false) : ∃ r, f32Sqrt a = some r ∧ f32Sign r = false ∧ isNaN r = false ∧ isInf r = false ∧
      ∀ c : Word, f32Sign c = false → isNaN c = false → isInf c = false →
        (f32Mag r < f32Mag c → 4 * (f32Mag a * 2 ^ 149) ≤ (f32Mag r + f32Mag c) ^ 2) ∧
        (f32Mag c < f32Mag r → (f32Mag c + f32Mag r) ^ 2 ≤ 4 * (f32Mag a * 2 ^ 149)) := by
  have hm : f32Mag a < 2 ^ 277 := by
    have := magOfLow_strictMono (f32Low_lt_of_finite hn hi)
    rw [magOfLow_top.2] at this
    rw [f32Mag_eq]
    omega
  obtain ⟨hb, hfin, hmid⟩ := roundMag_sqrt (f32Mag_pos hz) hm
  refine ⟨_, f32Sqrt_positive hn hi hz hs, f32Sign_pack _ (roundMag_lt _ _), ?_, ?_, fun c _ _ _ => ?_⟩
  · rw [← Bool.not_eq_true, isNaN_iff, f32Low_pack _ (roundMag_lt _ _), f32One_eq]
    exact hfin.not_gt
  · rw [← Bool.not_eq_true, isInf_iff, f32Low_pack _ (roundMag_lt _ _), f32One_eq]
    exact hfin.ne
  · have h := hmid.sqrt (by omega) hb (f32Low c)
    rwa [f32Mag_eq c, f32Mag_eq (f32Pack _ _), f32Low_pack _ (roundMag_lt _ _), f32One_eq,
      magOfLow_strictMono.lt_iff_lt, magOfLow_strictMono.lt_iff_lt]

/-- Settles O46: a sum or difference is rounded once; the root through its even midpoints. -/
theorem sumAndRootAreNearest : Obligations.SumAndRootAreNearest := by
  unfold Obligations.SumAndRootAreNearest
  exact ⟨fun _ _ hna hnb hia hib => ⟨f32Add_nearest hna hnb hia hib, f32Sub_nearest hna hnb hia hib⟩,
    fun _ => f32Sqrt_nearest⟩

/-! ### Special cases -/

theorem isNaN_of_isInf {w : Word} (h : isInf w = true) : isNaN w = false := by
  rw [isInf_iff] at h
  rw [← Bool.not_eq_true, isNaN_iff, h]
  decide

theorem isZero_of_isInf {w : Word} (h : isInf w = true) : isZero w = false := by
  rw [isInf_iff] at h
  rw [← Bool.not_eq_true, isZero_iff, h]
  decide

/-- There is one infinity of each sign. -/
theorem eq_of_isInf {a b : Word} (ha : isInf a = true) (hb : isInf b = true) (hs : f32Sign a = f32Sign b) :
    a = b :=
  eq_of_sign_of_low hs (((isInf_iff a).1 ha).trans ((isInf_iff b).1 hb).symm)

theorem f32Inf_eq (neg : Bool) : f32Inf neg = if neg then 0xFF800000 else 0x7F800000 := by
  cases neg <;> rfl

theorem f32Sign_inf (neg : Bool) : f32Sign (f32Inf neg) = neg := f32Sign_pack neg (by decide)

theorem f32Add_comm (a b : Word) : f32Add a b = f32Add b a := by
  by_cases hn : isNaN a = true ∨ isNaN b = true
  · rcases hn with h | h <;> simp [f32Add, h]
  obtain ⟨hna, hnb⟩ : isNaN a = false ∧ isNaN b = false := by simpa using hn
  cases hia : isInf a <;> cases hib : isInf b
  case true.true =>
    by_cases hs : f32Sign a = f32Sign b
    · rw [eq_of_isInf hia hib hs]
    · simp [f32Add, hna, hnb, hia, hib, hs, Ne.symm hs]
  all_goals simp [f32Add, hna, hnb, hia, hib, add_comm, Bool.and_comm]

theorem f32Mul_comm (a b : Word) : f32Mul a b = f32Mul b a := by
  simp only [f32Mul, bne_comm (a := f32Sign a), Bool.or_comm (isNaN a), Bool.or_comm (isInf a),
    Bool.or_comm (isZero a), mul_comm (f32Mag a)]

theorem f32Fma_comm (a b c : Word) : f32Fma a b c = f32Fma b a c := by
  simp only [f32Fma, bne_comm (a := f32Sign a), Bool.or_comm (isNaN a), Bool.or_comm (isInf a),
    Bool.or_comm (isZero a), mul_comm (f32Val a)]

/-- A NaN operand gives a NaN (R205). -/
theorem nan_operand {a : Word} (h : isNaN a = true) (b c : Word) :
    f32Add a b = none ∧ f32Sub a b = none ∧ f32Sub b a = none ∧ f32Mul a b = none ∧ f32Div a b = none ∧
      f32Div b a = none ∧ f32Sqrt a = none ∧ f32Fma a b c = none ∧ f32Fma b c a = none := by
  simp [f32Add, f32Sub, f32Mul, f32Div, f32Sqrt, f32Fma, h]

/-- Infinities of opposite signs have no sum. -/
theorem f32Add_opposite_inf {a b : Word} (ha : isInf a = true) (hb : isInf b = true)
    (hs : f32Sign a ≠ f32Sign b) : f32Add a b = none := by
  simp [f32Add, ha, hb, hs]

theorem f32Add_inf {a b : Word} (ha : isInf a = true) (hb : isNaN b = false)
    (hs : isInf b = true → f32Sign a = f32Sign b) : f32Add a b = some a := by
  cases hib : isInf b with
  | true => simp [f32Add, ha, hb, isNaN_of_isInf ha, hs hib]
  | false => simp [f32Add, ha, hb, isNaN_of_isInf ha, hib]

/-- A finite pattern over an infinity is a zero (R212). -/
theorem f32Div_by_inf {a b : Word} (hn : isNaN a = false) (hi : isInf a = false) (hb : isInf b = true) :
    f32Div a b = some (f32Pack (f32Sign a != f32Sign b) 0) := by
  simp [f32Div, hn, hi, hb, isNaN_of_isInf hb]

/-- The fused operation of an infinity and what is neither a NaN nor a zero (R228). -/
theorem f32Fma_inf {a b c : Word} (ha : isInf a = true) (hb : isNaN b = false) (hz : isZero b = false)
    (hc : isNaN c = false) : f32Fma a b c =
      if isInf c = true ∧ f32Sign c ≠ (f32Sign a != f32Sign b) then none
      else some (f32Inf (f32Sign a != f32Sign b)) := by
  simp [f32Fma, ha, hb, hz, hc, isNaN_of_isInf ha, isZero_of_isInf ha]

/-- A finite number less itself is +0. -/
theorem f32Sub_self {a : Word} (hn : isNaN a = false) (hi : isInf a = false) :
    f32Sub a a = some 0x00000000 := by
  obtain ⟨r, hr, -, hz⟩ := f32Sub_nearest hn hn hi hi
  rw [hr, hz (sub_self _), if_neg (by simp)]

/-- Settles O47: the operations' own tests, case by case. -/
theorem floatSpecialCases : Obligations.FloatSpecialCases := by
  unfold Obligations.FloatSpecialCases
  intro a b c opposite inf
  have hinf : inf = f32Inf opposite := (f32Inf_eq opposite).symm
  simp only [hinf, f32Sign_inf, opposite, bne_iff_ne, not_not, ne_eq]
  refine ⟨⟨f32Add_comm a b, f32Mul_comm a b, f32Fma_comm a b c⟩, fun h => nan_operand h b c,
    f32Add_opposite_inf, fun ha hb hs => ?sub, f32Add_inf, fun ha hb => ?zeroMul, fun ha hb hz => ?infMul,
    fun ha hb => ?infDiv, fun ha hb hib => ?divFinite, fun ha hia hb => ?divInf, f32Fma_inf,
    fun ha hia hb hib hc => ?fmaInf, f32Sub_self, ⟨rfl, rfl⟩, fun hs hn hz => ?sqrt, ⟨rfl, rfl⟩⟩
  case sub => exact f32Add_opposite_inf ha (by rw [isInf_neg, hb]) (by rw [f32Sign_neg, hs]; simp)
  case zeroMul => simp [f32Mul, f32Fma, ha, hb]
  case infMul => simp [f32Mul, ha, hb, hz, isNaN_of_isInf ha, isZero_of_isInf ha]
  case infDiv => simp [f32Div, ha, hb]
  case divFinite => simp [f32Div, ha, hb, hib, isNaN_of_isInf ha]
  case divInf =>
    rw [f32Div_by_inf ha hia hb, f32Pack_zero]
    simp only [bne_iff_ne, ne_eq]
  case fmaInf => simp [f32Fma, ha, hia, hb, hib, hc, isNaN_of_isInf hc]
  case sqrt => simp [f32Sqrt, hs, hn, hz]

end Sys2Proof.Machine
end

section
/-!
SUPPORT and PROOFS. Conversions between floats and integers (45_float.md, R219, R220, R225, R226): every
direction rounds to an integer less than one away, and small integers have patterns of their own.
-/

namespace Sys2Proof.Machine

/-! ### From a float -/

/-- The integer of a sign, a quotient and a remainder, direction by direction: whether the quotient goes up
by one is what the direction asks for of the fraction and the sign. -/
theorem rounds_of_parts (mode : Rounding) (neg : Bool) {q r : Nat} (hr : r < 2 ^ 149) {m : Nat}
    (hm : m = q + if roundsUp mode neg q r (2 ^ 149) then 1 else 0) :
    RoundsToInteger mode (if neg then -((q * 2 ^ 149 + r : Nat) : Int) else (q * 2 ^ 149 + r : Nat))
      (if neg then -(m : Int) else m) := by
  cases mode with
  | nearestEven | nearestAway =>
    simp only [RoundsToInteger, roundsUp, Bool.or_eq_true, Bool.and_eq_true, decide_eq_true_eq,
      beq_iff_eq] at hm ⊢
    split at hm <;> split <;> omega
  | towardZero =>
    simp only [RoundsToInteger, roundsUp, Bool.false_eq_true, if_false] at hm ⊢
    split <;> omega
  | down =>
    cases neg with
    | true =>
      simp only [RoundsToInteger, roundsUp, Bool.true_and, bne_iff_ne, if_true] at hm ⊢
      split at hm <;> omega
    | false =>
      simp only [RoundsToInteger, roundsUp, Bool.false_and, Bool.false_eq_true, if_false] at hm ⊢
      omega
  | up =>
    cases neg with
    | true =>
      simp only [RoundsToInteger, roundsUp, Bool.not_true, Bool.false_and, Bool.false_eq_true, if_true,
        if_false] at hm ⊢
      omega
    | false =>
      simp only [RoundsToInteger, roundsUp, Bool.not_false, Bool.true_and, bne_iff_ne, Bool.false_eq_true,
        if_false] at hm ⊢
      split at hm <;> omega

/-- Every direction rounds as it says, fractions included (R219). -/
theorem f32ToInt_rounds (mode : Rounding) (a : Word) : RoundsToInteger mode (f32Val a) (f32ToInt mode a) := by
  have h := rounds_of_parts mode (f32Sign a) (q := f32Mag a / 2 ^ 149)
    (Nat.mod_lt (f32Mag a) (Nat.two_pow_pos 149)) rfl
  rwa [Nat.div_add_mod'] at h

/-- Whatever the direction, the integer is less than one away. -/
theorem RoundsToInteger.close {mode : Rounding} {v n : Int} (h : RoundsToInteger mode v n) :
    (n * 2 ^ 149 - v).natAbs < 2 ^ 149 := by
  cases mode <;> simp only [RoundsToInteger] at h <;> omega

/-- An integer value converts to itself in every direction. -/
theorem f32ToInt_of_exact (mode : Rounding) {a : Word} {n : Int} (h : f32Val a = n * 2 ^ 149) :
    f32ToInt mode a = n := by
  have := (f32ToInt_rounds mode a).close
  rw [h] at this
  omega

/-- An infinity lies beyond every integer range. -/
theorem f32ToInt_of_inf (mode : Rounding) {a : Word} (h : isInf a = true) :
    if f32Sign a = true then f32ToInt mode a < -2 ^ 31 else f32ToInt mode a > 2 ^ 32 - 1 := by
  have hclose := (f32ToInt_rounds mode a).close
  rw [f32Val_eq, (isInf_iff a).1 h, magOfLow_top.2] at hclose
  split
  next hs => rw [if_pos hs] at hclose; omega
  next hs => rw [if_neg hs] at hclose; omega

/-- FCVT.W.S by the rounded integer (R219). -/
theorem s32FromF32_eq (mode : Rounding) (a : Word) : s32FromF32 mode a =
    if isNaN a = true ∨ f32ToInt mode a < -2 ^ 31 ∨ f32ToInt mode a > 2 ^ 31 - 1 then Config.f2iInvalid true a
    else BitVec.ofInt 32 (f32ToInt mode a) := by
  simp only [s32FromF32, Bool.or_eq_true, decide_eq_true_eq, or_assoc]
  rfl

/-- FCVT.WU.S by the rounded integer (R220). -/
theorem u32FromF32_eq (mode : Rounding) (a : Word) : u32FromF32 mode a =
    if isNaN a = true ∨ f32ToInt mode a < 0 ∨ f32ToInt mode a > 2 ^ 32 - 1 then Config.f2iInvalid false a
    else BitVec.ofInt 32 (f32ToInt mode a) := by
  simp only [u32FromF32, Bool.or_eq_true, decide_eq_true_eq, or_assoc]
  rfl

/-! ### From an integer -/

theorem f32FromInt_nearest (n : Int) : NearestPattern (f32FromInt n) (n * 2 ^ 149) 1 :=
  nearestPattern_roundVal _ one_pos _

/-- A magnitude that is a pattern's own is rounded to that pattern. -/
theorem roundMag_magOfLow {k : Nat} (h : k < 0x7F800000) : roundMag (magOfLow k) 1 = k := by
  have hfin : roundMag (magOfLow k) 1 < 0x7F800000 := by
    refine lt_of_le_of_ne (roundMag_le _ _) fun hc => ?_
    have hle := (roundMag_eq_inf_iff one_pos).1 hc
    have hk := magOfLow_strictMono.monotone (Nat.le_of_lt_succ h)
    rw [magOfLow_top.1] at hk
    omega
  have hgap := ((roundMag_midpoints one_pos hfin).nearest one_pos k).1
  simp only [magGap] at hgap
  exact magOfLow_strictMono.injective (by omega)

/-- An integer of at most 24 bits, or 2^24, has a pattern: its significand is shifted up to 24 bits. -/
theorem exists_magOfLow_eq {n : Nat} (h : n ≤ 2 ^ 24) : ∃ k < 0x7F800000, magOfLow k = n * 2 ^ 149 := by
  rcases Nat.eq_zero_or_pos n with rfl | hpos
  · exact ⟨0, by decide, rfl⟩
  rcases h.eq_or_lt with rfl | hlt
  · exact ⟨150 * 2 ^ 23 + 2 ^ 23, by decide, (magOfLow_add (by decide) (.inr le_rfl)).1⟩
  have hl : n.log2 < 24 := (Nat.log2_lt hpos.ne').2 hlt
  have hlo : 2 ^ n.log2 ≤ n := Nat.log2_self_le hpos.ne'
  have hhi : n < 2 ^ (n.log2 + 1) := Nat.lt_log2_self
  have hq : n * 2 ^ (23 - n.log2) < 2 ^ 24 := by
    calc n * 2 ^ (23 - n.log2) < 2 ^ (n.log2 + 1) * 2 ^ (23 - n.log2) :=
          Nat.mul_lt_mul_of_pos_right hhi (by positivity)
      _ = 2 ^ 24 := by rw [← pow_add]; congr 1; omega
  have hq' : 2 ^ 23 ≤ n * 2 ^ (23 - n.log2) := by
    calc 2 ^ 23 = 2 ^ n.log2 * 2 ^ (23 - n.log2) := by rw [← pow_add]; congr 1; omega
      _ ≤ n * 2 ^ (23 - n.log2) := Nat.mul_le_mul_right _ hlo
  refine ⟨(126 + n.log2) * 2 ^ 23 + n * 2 ^ (23 - n.log2), by omega, ?_⟩
  rw [(magOfLow_add hq (.inr hq')).1, mul_assoc, ← pow_add]
  congr 2
  omega

/-- A small integer converts exactly (R225, R226). -/
theorem f32Val_fromInt {n : Int} (hlo : -2 ^ 24 ≤ n) (hhi : n ≤ 2 ^ 24) :
    f32Val (f32FromInt n) = n * 2 ^ 149 := by
  obtain ⟨k, hk, hmag⟩ := exists_magOfLow_eq (n := n.natAbs) (by omega)
  have habs : (n * f32One : Int).natAbs = magOfLow k := by
    rw [hmag, Int.natAbs_mul]
    rfl
  have hlow : f32Low (f32FromInt n) = k := by
    rw [f32FromInt, roundVal_eq, habs, roundMag_magOfLow hk, f32Low_pack _ (by omega)]
  rw [f32Val_eq, hlow, hmag]
  by_cases h0 : n = 0
  · rw [h0]
    split <;> rfl
  · have hsign := (f32FromInt_nearest n).sign (by omega)
    split
    next h => have := hsign.1 h; omega
    next h => have := mt hsign.2 h; omega

/-- Settles O48: the conversion is exact, and an exact value converts back in every direction. -/
theorem smallIntegersSurviveConversion : Obligations.SmallIntegersSurviveConversion := by
  unfold Obligations.SmallIntegersSurviveConversion
  intro n mode hlo hhi
  have hnan := (f32FromInt_nearest n).notNaN
  have hval := f32Val_fromInt hlo hhi
  have hint := f32ToInt_of_exact mode hval
  refine ⟨hnan, hint, hval, ?_, fun h0 => ?_⟩
  · rw [s32FromF32_eq, hint, if_neg]
    simp only [hnan, Bool.false_eq_true, false_or]
    omega
  · rw [u32FromF32_eq, hint, if_neg]
    simp only [hnan, Bool.false_eq_true, false_or]
    omega

end Sys2Proof.Machine
end

section
/-!
SUPPORT and PROOFS. The float instructions (45_float.md, R205 to R232): what an instruction that writes a
float result or one single view does, and the statements about each group of instructions.
-/

namespace Sys2Proof.Machine

/-- An instruction whose meaning is one single-view write and the advance completes. -/
theorem exec_wroteFS {s : State} {i : Instr} {rd : Reg} {v : Word}
    (h : exec i s = .next (s.writeFS rd v).retire) : ∃ t, exec i s = .next t ∧ s.WroteFS t rd v :=
  ⟨_, h, wroteFS_writeFS_retire s rd v⟩

theorem isNaN_nanResult (n : Nat) : isNaN (nanResult n) = true := by
  unfold nanResult
  split
  next h => exact h
  next => decide

/-- A float result is written, or for a NaN result a NaN pattern; that it is drawn changes nothing else
(R205). -/
theorem wroteFloat_writeResult_retire (s : State) (rd : Reg) (r : Option Word) :
    s.WroteFloat (s.writeResult rd r).retire rd r := by
  cases r with
  | some v => exact ⟨v, rfl, wroteFS_writeFS_retire s rd v⟩
  | none =>
    have w := wroteFS_writeFS_retire s rd (nanResult s.draws)
    exact ⟨_, isNaN_nanResult s.draws,
      ⟨advanced_retire (kept_writeResult s rd none), w.low, w.high, w.others, w.ints, w.bytes⟩⟩

/-- An instruction whose meaning is one float result and the advance completes. -/
theorem exec_wroteFloat {s : State} {i : Instr} {rd : Reg} {r : Option Word}
    (h : exec i s = .next (s.writeResult rd r).retire) : ∃ t, exec i s = .next t ∧ s.WroteFloat t rd r :=
  ⟨_, h, wroteFloat_writeResult_retire s rd r⟩

/-- FDIV.S by a zero gives a zero, whatever the dividend (R212). -/
theorem f32DivS_zero (a : Word) {b : Word} (h : b.extractLsb' 0 31 = 0) :
    f32DivS a b = some (fdiv0Result a b) := by
  rw [f32DivS, isZero, if_pos (beq_iff_eq.2 h)]

theorem f32DivS_nonzero (a : Word) {b : Word} (h : b.extractLsb' 0 31 ≠ 0) : f32DivS a b = f32Div a b := by
  rw [f32DivS, isZero, if_neg (mt beq_iff_eq.1 h)]

theorem fdiv0Result_cases (a b : Word) :
    fdiv0Result a b = 0x00000000#32 ∨ fdiv0Result a b = 0x80000000#32 := by
  rw [fdiv0Result, f32Pack_zero]
  split
  · exact .inr rfl
  · exact .inl rfl

/-- Settles O40: each meaning is one float result; that of FDIV.S by a zero is a zero, no NaN. -/
theorem floatArithmetic : Obligations.FloatArithmetic := by
  unfold Obligations.FloatArithmetic
  intro s rd rs1 rs2 rm
  have div : ∃ t, exec (.fdivS rd rs1 rs2 rm) s = .next t ∧
      s.WroteFloat t rd (f32DivS (s.readFS rs1) (s.readFS rs2)) := exec_wroteFloat rfl
  refine ⟨rfl, exec_wroteFloat rfl, rfl, exec_wroteFloat rfl, rfl, exec_wroteFloat rfl, rfl, fun hz => ?_,
    fun hz => ?_, rfl, exec_wroteFloat rfl⟩
  · rwa [f32DivS_nonzero _ hz] at div
  · rw [f32DivS_zero _ hz] at div
    obtain ⟨t, ht, v, rfl, hw⟩ := div
    exact ⟨t, _, ht, fdiv0Result_cases _ _, hw⟩

theorem fused_one {s : State} (h : s.params.fmaFused = .one) (a b c : Word) :
    s.fused a b c = f32Fma a b c := by
  rw [State.fused, h, f32FusedAs]

theorem fused_two {s : State} (h : s.params.fmaFused = .two) (a b c : Word) :
    s.fused a b c = (f32Mul a b).bind fun q => f32Add q c := by
  rw [State.fused, h, f32FusedAs]

/-- Settles O41: each meaning is one float result, that of the roundings FMA_FUSED says. -/
theorem fusedMultiplyAdd : Obligations.FusedMultiplyAdd := by
  unfold Obligations.FusedMultiplyAdd
  intro s rd rs1 rs2 rs3 rm
  cases h : s.params.fmaFused with
  | one =>
    simp only [← fused_one h]
    exact ⟨rfl, exec_wroteFloat rfl, rfl, exec_wroteFloat rfl, rfl, exec_wroteFloat rfl, rfl, exec_wroteFloat rfl⟩
  | two =>
    simp only [← fused_two h]
    exact ⟨rfl, exec_wroteFloat rfl, rfl, exec_wroteFloat rfl, rfl, exec_wroteFloat rfl, rfl, exec_wroteFloat rfl⟩

/-- The special cases of FMIN.S and FMAX.S, as their test (R217). -/
theorem minMax_test_iff (a b : Word) : (isNaN a || isNaN b || (isZero a && isZero b)) = true ↔
    isNaN a = true ∨ isNaN b = true ∨ (a.extractLsb' 0 31 = 0 ∧ b.extractLsb' 0 31 = 0) := by
  simp only [isZero, Bool.or_eq_true, Bool.and_eq_true, beq_iff_eq, or_assoc]

section
variable {a b : Word}

theorem f32MinMax_special (op : MinMax) (h : isNaN a = true ∨ isNaN b = true ∨
    (a.extractLsb' 0 31 = 0 ∧ b.extractLsb' 0 31 = 0)) :
    f32MinMax op a b = Config.fminmaxSpecial op a b := by
  unfold f32MinMax
  exact if_pos ((minMax_test_iff a b).2 h)

theorem f32MinMax_min (h : ¬(isNaN a = true ∨ isNaN b = true ∨
    (a.extractLsb' 0 31 = 0 ∧ b.extractLsb' 0 31 = 0))) :
    f32MinMax .min a b = if f32Val a ≤ f32Val b then a else b := by
  unfold f32MinMax
  exact if_neg (mt (minMax_test_iff a b).1 h)

theorem f32MinMax_max (h : ¬(isNaN a = true ∨ isNaN b = true ∨
    (a.extractLsb' 0 31 = 0 ∧ b.extractLsb' 0 31 = 0))) :
    f32MinMax .max a b = if f32Val a ≥ f32Val b then a else b := by
  unfold f32MinMax
  exact if_neg (mt (minMax_test_iff a b).1 h)

end

/-- Settles O42: each meaning is one single-view write. -/
theorem signInjectionAndMinMax : Obligations.SignInjectionAndMinMax := by
  unfold Obligations.SignInjectionAndMinMax
  intro s rd rs1 rs2
  refine ⟨rfl, exec_wroteFS rfl, rfl, exec_wroteFS rfl, rfl, exec_wroteFS rfl,
    rfl, fun h => ?_, fun h => ?_, rfl, fun h => ?_, fun h => ?_⟩
  · rw [← f32MinMax_special .min h]; exact exec_wroteFS rfl
  · rw [← f32MinMax_min h]; exact exec_wroteFS rfl
  · rw [← f32MinMax_special .max h]; exact exec_wroteFS rfl
  · rw [← f32MinMax_max h]; exact exec_wroteFS rfl

/-- Settles O43: the conversions round as their direction says, and each meaning is one write. -/
theorem conversionsAndMoves : Obligations.ConversionsAndMoves := by
  unfold Obligations.ConversionsAndMoves
  refine ⟨fun mode a _ => ⟨fun _ => f32ToInt_rounds mode a, f32ToInt_of_inf mode⟩,
    fun n _ _ => f32FromInt_nearest n, rfl, fun s rd rs1 rm => ?_⟩
  refine ⟨rfl, fun h => ?_, fun h => ?_, rfl, fun h => ?_, fun h => ?_, rfl, exec_wroteFS rfl,
    rfl, exec_wroteFS rfl, rfl, exec_wroteX rfl, rfl, exec_wroteFS rfl⟩
  · rw [← (s32FromF32_eq _ _).trans (if_pos h)]; exact exec_wroteX rfl
  · rw [← (s32FromF32_eq _ _).trans (if_neg h)]; exact exec_wroteX rfl
  · rw [← (u32FromF32_eq _ _).trans (if_pos h)]; exact exec_wroteX rfl
  · rw [← (u32FromF32_eq _ _).trans (if_neg h)]; exact exec_wroteX rfl

theorem boolWord_f32Eq (a b : Word) : boolWord (f32Eq a b) =
    if isNaN a = false ∧ isNaN b = false ∧ f32Val a = f32Val b then 1 else 0 := by
  simp [boolWord, f32Eq, and_assoc]

theorem boolWord_f32Lt (a b : Word) : boolWord (f32Lt a b) =
    if isNaN a = false ∧ isNaN b = false ∧ f32Val a < f32Val b then 1 else 0 := by
  simp [boolWord, f32Lt, and_assoc]

theorem boolWord_f32Le (a b : Word) : boolWord (f32Le a b) =
    if isNaN a = false ∧ isNaN b = false ∧ f32Val a ≤ f32Val b then 1 else 0 := by
  simp [boolWord, f32Le, and_assoc]

/-- Settles O44: each meaning is one guarded register write of a comparison's 0/1 value. -/
theorem floatCompare : Obligations.FloatCompare := by
  unfold Obligations.FloatCompare
  intro s rd rs1 rs2
  rw [← boolWord_f32Eq, ← boolWord_f32Lt, ← boolWord_f32Le]
  exact ⟨rfl, exec_wroteX rfl, rfl, exec_wroteX rfl, rfl, exec_wroteX rfl, rfl⟩

end Sys2Proof.Machine
end

section
/-!
SUPPORT and PROOFS. Double precision (46_float_double.md): what a stub leaves, what a write of a whole float
cell does, and the statements about FLD and FSD and about the stubs.
-/

namespace Sys2Proof.Machine

/-- A stub is the advance alone: the counter and `pc` (R240). -/
theorem stub_eq (s : State) : s.stub = .next { s with pc := s.pc + 4, counter := s.counter + 1 } := rfl

/-- An instruction whose meaning is the stub changes nothing but `pc` and the counter (R240). -/
theorem exec_stub {s : State} {i : Instr} (h : exec i s = s.stub) :
    exec i s = .next { s with pc := s.pc + 4, counter := s.counter + 1 } :=
  h.trans (stub_eq s)

/-- Settles O49: each word is its format's, and each meaning the stub. -/
theorem doubleArithmeticStubs : Obligations.DoubleArithmeticStubs := by
  unfold Obligations.DoubleArithmeticStubs
  intro s rd rs1 rs2 rm
  exact ⟨rfl, exec_stub rfl, rfl, exec_stub rfl, rfl, exec_stub rfl, rfl, exec_stub rfl,
    rfl, exec_stub rfl, rfl, exec_stub rfl, rfl, exec_stub rfl, rfl, exec_stub rfl,
    rfl, exec_stub rfl, rfl, exec_stub rfl, rfl, exec_stub rfl, rfl, exec_stub rfl⟩

/-- Settles O50: each word is its format's, and each meaning the stub. -/
theorem doubleCompareConvertFusedStubs : Obligations.DoubleCompareConvertFusedStubs := by
  unfold Obligations.DoubleCompareConvertFusedStubs
  intro s rd rs1 rs2 rs3 rm
  exact ⟨rfl, exec_stub rfl, rfl, exec_stub rfl, rfl, exec_stub rfl, rfl, exec_stub rfl,
    rfl, exec_stub rfl, rfl, exec_stub rfl, rfl, exec_stub rfl, rfl, exec_stub rfl,
    rfl, exec_stub rfl, rfl, exec_stub rfl, rfl, exec_stub rfl, rfl, exec_stub rfl⟩

/-! ### FLD and FSD under FLD_FSD_ACTION (R241, R242) -/

section
variable {s : State} (rd rs1 rs2 : Reg) (imm : BitVec 12)

theorem exec_fld_stub (h : s.params.fldFsd = .stub) : exec (.fld rd rs1 imm) s = s.stub :=
  stubOr_stub h _

theorem exec_fsd_stub (h : s.params.fldFsd = .stub) : exec (.fsd rs1 rs2 imm) s = s.stub :=
  stubOr_stub h _

theorem exec_fld_move64 (h : s.params.fldFsd = .move64) :
    exec (.fld rd rs1 imm) s = s.load (s.ea rs1 imm) 8 fun s v => s.writeFD rd v :=
  stubOr_move64 h _

theorem exec_fsd_move64 (h : s.params.fldFsd = .move64) :
    exec (.fsd rs1 rs2 imm) s = s.store (s.ea rs1 imm) 8 (s.readFD rs2) :=
  stubOr_move64 h _

end

/-- Settles O34: by the parameter, the stub or a load or store of 8 bytes, of which each case of the access
is known. -/
theorem fldFsdFollowTheirParameter : Obligations.FldFsdFollowTheirParameter := by
  unfold Obligations.FldFsdFollowTheirParameter
  intro s rd rs1 rs2 imm
  refine ⟨fun hp => ⟨exec_stub (exec_fld_stub rd rs1 imm hp), exec_stub (exec_fsd_stub rs1 rs2 imm hp)⟩,
    fun hp => ?_⟩
  have fld := exec_fld_move64 rd rs1 imm hp
  have fsd := exec_fsd_move64 rs1 rs2 imm hp
  refine ⟨fun v hv => ?_, fun q hq hs => exec_store_storedAt hs fsd hq, fun hr => ?_, fun v hr hv => ?_⟩
  · exact ⟨_, fld.trans (load_done hv _), advanced_retire (kept_writeFD s rd v),
      by rw [readFD_retire, readFD_writeFD_same], fun r hr => readFD_writeFD_other s v hr,
      writeFD_x s rd v, fun p => by rw [readPlace_retire, readPlace_writeFD]⟩
  · exact ⟨exec_stub (fld.trans (load_unresolved hr 8 _)), exec_stub (fsd.trans (store_unresolved hr 8 _))⟩
  · exact ⟨fld.trans (load_short hr hv _), fsd.trans (store_short hr hv _)⟩

end Sys2Proof.Machine
end

section
/-!
SUPPORT and PROOFS. The sticky fault flag along a run (60_exceptions.md): a run by its first step, and the
statement that every run from a set flag is one stuck step.
-/

namespace Sys2Proof.Machine

/-- A run whose first step goes on is the rest of the run from where that step ends. -/
theorem run_succ_of_step {M : Host.Core} {s t : M.State} (h : M.step s = .next t) (n : Nat) :
    M.run (n + 1) s = M.run n t := by
  simp [Host.Core.run, h]

/-- A second stuck step changes nothing more. -/
theorem stuckStep_stuckStep (s : State) : s.stuckStep.stuckStep = s.stuckStep := rfl

/-- A run from a set flag is one stuck step, however long it is (R272). -/
theorem run_stuck (n : Nat) {s : State} (h : s.fault = true) :
    Host.Core.run Sys2Proof.core (n + 1) s = .next s.stuckStep := by
  induction n generalizing s with
  | zero => exact run_succ_of_step (M := Sys2Proof.core) (step_stuck h) 0
  | succ n ih =>
    calc Host.Core.run Sys2Proof.core (n + 2) s
      _ = Host.Core.run Sys2Proof.core (n + 1) s.stuckStep :=
        run_succ_of_step (M := Sys2Proof.core) (step_stuck h) (n + 1)
      _ = .next s.stuckStep.stuckStep := ih ((stuckStep_fault s).trans h)
      _ = .next s.stuckStep := by rw [stuckStep_stuckStep]

/-- Settles O10: the stuck step writes the status alone, and it is the whole run. -/
theorem stickyFaultMakesEveryStepANoOp : Obligations.StickyFaultMakesEveryStepANoOp := by
  unfold Obligations.StickyFaultMakesEveryStepANoOp
  exact fun _ n h => run_stuck n h

end Sys2Proof.Machine
end

section
/-!
SUPPORT and PROOFS. The host's boot and symbol operations (70_reset_and_hazards.md): which register each
argument reaches, what every register holds after boot, and what a lookup by index or by name answers.
-/

namespace Sys2Proof.Machine

/-! ### Boot (R304) -/

/-- Placing arguments leaves a register below the first one's, above the last one's or above `a7`. -/
theorem readX_setArgs_other (s : State) (i : Nat) (args : List Word) {r : Reg}
    (h : r.val < 10 + i ∨ 10 + i + args.length ≤ r.val ∨ lastArg < r.val) :
    (s.setArgs i args).readX r = s.readX r := by
  induction args generalizing s i with
  | nil => rfl
  | cons v vs ih =>
    rw [List.length_cons] at h
    rw [State.setArgs, ih _ _ (by omega)]
    split
    · exact readX_pokeX_other s v (Fin.ne_of_val_ne (by dsimp only; omega))
    · rfl

/-- The `j`-th of the arguments placed from `a i` upward is in `a (i + j)`, up to `a7` (R304 step 7). -/
theorem readX_setArgs_arg (s : State) (i : Nat) {args : List Word} {j : Nat} (hj : j < args.length)
    {r : Reg} (hr : r.val = 10 + i + j) (hlast : r.val ≤ lastArg) :
    (s.setArgs i args).readX r = args[j] := by
  induction args generalizing s i j with
  | nil => contradiction
  | cons v vs ih =>
    rw [State.setArgs]
    cases j with
    | zero =>
      have hreg : (⟨10 + i, hr ▸ r.isLt⟩ : Reg) = r := Fin.ext hr.symm
      rw [readX_setArgs_other _ _ _ (by omega), dif_pos (hr ▸ hlast), hreg, readX_pokeX_same]
      rfl
    | succ j => exact ih _ (i + 1) (Nat.lt_of_succ_lt_succ hj) (by omega)

theorem readX_boot (s : State) (args : List Word) (entry : Word) (echo : Bool) (r : Reg) :
    (s.boot args entry echo).readX r =
      ((((s.pokeX 2 s.image.codeOrigin).pokeX 3 s.image.gp).pokeX 1 s.params.nativePc).setArgs 0 args).readX r :=
  rfl

/-- A register that receives no argument is left by boot as `ra`, `sp` and `gp` are set. -/
theorem readX_boot_no_arg (s : State) (args : List Word) (entry : Word) (echo : Bool) {r : Reg}
    (h : ¬(10 ≤ r.val ∧ r.val < 18 ∧ r.val < 10 + args.length)) :
    (s.boot args entry echo).readX r =
      (((s.pokeX 2 s.image.codeOrigin).pokeX 3 s.image.gp).pokeX 1 s.params.nativePc).readX r :=
  (readX_boot s args entry echo r).trans (readX_setArgs_other _ 0 args (by unfold lastArg; omega))

theorem readX_boot_ra (s : State) (args : List Word) (entry : Word) (echo : Bool) :
    (s.boot args entry echo).readX 1 = s.params.nativePc := by
  rw [readX_boot_no_arg s args entry echo (by simp), readX_pokeX_same]

theorem readX_boot_sp (s : State) (args : List Word) (entry : Word) (echo : Bool) :
    (s.boot args entry echo).readX 2 = s.image.codeOrigin := by
  rw [readX_boot_no_arg s args entry echo (by simp), readX_pokeX_other _ _ (by decide),
    readX_pokeX_other _ _ (by decide), readX_pokeX_same]

theorem readX_boot_gp (s : State) (args : List Word) (entry : Word) (echo : Bool) :
    (s.boot args entry echo).readX 3 = s.image.gp := by
  rw [readX_boot_no_arg s args entry echo (by simp), readX_pokeX_other _ _ (by decide), readX_pokeX_same]

/-- Boot leaves every register but `ra`, `sp`, `gp` and those that receive an argument. -/
theorem readX_boot_other (s : State) (args : List Word) (entry : Word) (echo : Bool) {r : Reg}
    (hr : r.val ∉ [1, 2, 3]) (hn : ¬(10 ≤ r.val ∧ r.val < 18 ∧ r.val < 10 + args.length)) :
    (s.boot args entry echo).readX r = s.readX r := by
  have apart {q : Reg} (hq : q.val ∈ [1, 2, 3]) : r ≠ q := fun e => hr (e ▸ hq)
  rw [readX_boot_no_arg s args entry echo hn, readX_pokeX_other _ _ (apart (by decide)),
    readX_pokeX_other _ _ (apart (by decide)), readX_pokeX_other _ _ (apart (by decide))]

/-- Settles O56: the argument registers are apart from `ra`, `sp` and `gp`, so every register holds what the
one write that reaches it leaves; the rest of the state is `boot_eq`. -/
theorem bootDuties : Obligations.BootDuties := by
  unfold Obligations.BootDuties
  intro s args entry echo t
  refine ⟨readX_boot_ra s args entry echo, readX_boot_sp s args entry echo, readX_boot_gp s args entry echo,
    fun i h hr => ?arg, fun r => readX_boot_other s args entry echo, ?rest⟩
  case arg => exact (readX_boot s args entry echo _).trans (readX_setArgs_arg _ 0 h rfl (Nat.le_of_lt_succ hr))
  case rest =>
    obtain ⟨x, hx⟩ := boot_eq s args entry echo
    simp only [t, hx]

/-! ### Symbols (R305) -/

/-- A lookup answers an index exactly when its entry has the name and no entry before it has. -/
theorem findFunc_eq_some_iff (s : State) (name : List Byte) (i : Nat) : s.findFunc name = some i ↔
    (∃ e, s.image.funcs[i]? = some e ∧ e.name = name) ∧
    ∀ j e, j < i → s.image.funcs[j]? = some e → e.name ≠ name := by
  simp only [State.findFunc, List.findIdx?_eq_some_iff_getElem, List.getElem?_eq_some_iff, beq_iff_eq]
  constructor
  · rintro ⟨hi, hn, hlt⟩
    refine ⟨⟨_, ⟨hi, rfl⟩, hn⟩, ?_⟩
    rintro j e hj ⟨_, rfl⟩
    exact hlt j hj
  · rintro ⟨⟨e, ⟨hi, rfl⟩, hn⟩, hlt⟩
    exact ⟨hi, hn, fun j hj => hlt j _ hj ⟨hj.trans hi, rfl⟩⟩

section
variable {s : State} {i : Nat}

theorem funcAddress_of_entry {e : Symbol} (h : s.image.funcs[i]? = some e) :
    s.funcAddress i = some e.address := by rw [State.funcAddress, h, Option.map_some]

theorem insnCount_of_entry {e : Symbol} (h : s.image.funcs[i]? = some e) :
    s.insnCount i = some (e.size / 4) := by rw [State.insnCount, h, Option.map_some]

theorem setPcToIndex_of_entry {e : Symbol} (h : s.image.funcs[i]? = some e) :
    s.setPcToIndex i = some { s with pc := e.address } := by
  rw [State.setPcToIndex, funcAddress_of_entry h]
  rfl

theorem funcAddress_of_length_le (h : s.image.funcs.length ≤ i) : s.funcAddress i = none := by
  rw [State.funcAddress, List.getElem?_eq_none h, Option.map_none]

theorem insnCount_of_length_le (h : s.image.funcs.length ≤ i) : s.insnCount i = none := by
  rw [State.insnCount, List.getElem?_eq_none h, Option.map_none]

theorem setPcToIndex_of_length_le (h : s.image.funcs.length ≤ i) : s.setPcToIndex i = none := by
  rw [State.setPcToIndex, funcAddress_of_length_le h, Option.map_none]

theorem setPcToName_of_found {name : List Byte} (h : s.findFunc name = some i) :
    s.setPcToName name = s.setPcToIndex i := by rw [State.setPcToName, h, Option.bind_some]

theorem setPcToName_of_missing {name : List Byte} (h : s.findFunc name = none) :
    s.setPcToName name = none := by rw [State.setPcToName, h, Option.bind_none]

end

/-- Settles O57: a name goes through its least index, an index through its entry. -/
theorem symbolLookup : Obligations.SymbolLookup := by
  unfold Obligations.SymbolLookup
  exact fun s name => ⟨findFunc_eq_some_iff s name,
    fun _ _ h => ⟨funcAddress_of_entry h, insnCount_of_entry h, setPcToIndex_of_entry h⟩,
    fun _ h => ⟨funcAddress_of_length_le h, insnCount_of_length_le h, setPcToIndex_of_length_le h⟩,
    fun _ _ hi h => (setPcToName_of_found hi).trans (setPcToIndex_of_entry h),
    setPcToName_of_missing⟩

end Sys2Proof.Machine
end
